-- ==== Sys2Proof/Word.lean ====
section
/-! DEFINITION. The words of the part: bytes of a frame, the two- and four-byte fields, station time, and the
identifiers of the objects the manual numbers (00_scope.md, "Objects and their identifiers"). -/

namespace Sys2Proof

/-- One byte on a link. -/
abbrev Byte := BitVec 8
/-- A two-byte field (R179). -/
abbrev Half := BitVec 16
/-- A four-byte field (R179); also the network revision, the supply generation and the change count. -/
abbrev Word := BitVec 32
/-- Station time in milliseconds, which wraps (R20). -/
abbrev Stamp := BitVec 32

/-- Link ports LP0 to LP3. -/
abbrev Port := Fin 4
/-- Segments S0 to S255. -/
abbrev SegId := Fin 256
/-- Valves V0 to V511. -/
abbrev ValveId := Fin 512
/-- Feed points F0 to F63. -/
abbrev FeedId := Fin 64
/-- Pressure stations 0 to 127. -/
abbrev StationId := Fin 128
/-- Outage records O0 to O31. -/
abbrev OutageId := Fin 32

end Sys2Proof
end

