-- ==== Sys2Proof/Config.lean ====
section
/-! DEFINITION. The fixed sizes of the part (00_scope.md, "Capacities") and the free values: constants with no body
for what the manual does not state. Nothing can be proved of a free value. -/

namespace Sys2Proof.Config

/-- Frames in a port's outbound queue (R169). -/
abbrev queueFrames : Nat := 32
/-- An ALARM RESYNC is served when a queue holds this many entries or fewer (R176). -/
abbrev resyncEntries : Nat := 16
/-- Held call records (R72). -/
abbrev callRecords : Nat := 64
/-- Held incidents (R73). -/
abbrev incidentRecords : Nat := 16
/-- Segments in one incident (R73). -/
abbrev incidentSegments : Nat := 8
/-- Stamps in one arrival list (R81). -/
abbrev arrivalStamps : Nat := 16
/-- Plans held at once (R90). -/
abbrev planSlots : Nat := 8
/-- Segments in a plan's region (R95). -/
abbrev regionSegments : Nat := 32
/-- Rings of a plan (R95). -/
abbrev planRings : Nat := 4
/-- Distinct valves on all lists of a plan (R90). -/
abbrev planValves : Nat := 64
/-- Shared holds of one valve (R8). -/
abbrev sharedHolds : Nat := 7
/-- General alarm records (R156). -/
abbrev generalAlarms : Nat := 127
/-- The inter-byte gap in milliseconds (R172). -/
abbrev gapMs : Nat := 21

/-- FREE VALUE (notes/assumptions/20.md): a one-byte count field whose count is above 255. -/
opaque wideCount : Nat → BitVec 8
/-- FREE VALUE (notes/assumptions/21.md): the rank shown for a valve of an INFEASIBLE plan's close list, which was
never ranked. -/
opaque unrankedRank : Nat → BitVec 8
/-- FREE VALUE (notes/assumptions/22.md): the cause byte of an OUTAGE NOTICE whose record changed in a way that none
of the nine causes of R154 names. It is applied to the model's count of events. -/
opaque unlistedOutageCause : Nat → BitVec 8
/-- FREE VALUE (notes/assumptions/23.md): the marker of a page of an incident's calls, for which R185 names none. It
is applied to the model's count of events. -/
opaque callsPageMarker : Nat → BitVec 32

/-- FREE VALUE (notes/assumptions/24.md): a band state that R28 does not settle, since the active limits are not in order
(a table that START has not checked). It is applied to the model's count of events and to the place in the rule. -/
opaque openBand : Nat → Nat → Fin 5

/-- FREE VALUE (notes/assumptions/46.md): the cause that a PLAN NOTICE or the SUMMARY of READ PLAN carries where the manual
has the cause field filled and names no cause, as its place in the list of R181. It is applied to the model's count of events
and the plan's number. -/
opaque unstatedPlanCause : Nat → Nat → Fin 23

/-- FREE VALUE (notes/assumptions/53.md): what the SUMMARY of READ PLAN adds for the plan's final order records, which R111 has
readable there and for which R184 gives no place; it may be nothing. It is applied to the bytes of the records. -/
opaque planOrderBytes : List (BitVec 8) → List (BitVec 8)

end Sys2Proof.Config
end

