-- ==== Sys2Proof/Syntax.lean ====
section
/-! DEFINITION. The commands of the part: one constructor for each row of spec/opcode_table.json. A request carries
the port it came in on, its SEQ and the fields of its layout (R181, R182) as they stand on the wire, so that a field
holding a value the request does not define can be written too. -/

namespace Sys2Proof

/-- One command: a line asserted, a byte received, a deadline's expiry, work completed, or a request frame. -/
inductive Instr where
  /-- DEVICE_RESET (R13); `unlock` is the level of the table unlock line. -/
  | deviceReset (unlock : Bool)
  /-- RECEIVE_BYTE (R171). -/
  | receiveByte (p : Port) (b : Byte)
  /-- GAP_DEADLINE_EXPIRY (R172). -/
  | gapDeadlineExpiry (p : Port)
  /-- LIVENESS_DEADLINE_EXPIRY (R173). -/
  | livenessDeadlineExpiry (p : Port)
  /-- QUEUE_ENTRY_FREED (R176). -/
  | queueEntryFreed (p : Port)
  /-- LINK_RESET (R177). -/
  | linkReset (p : Port) (seq : Byte)
  /-- READING (R23). -/
  | reading (p : Port) (seq station : Byte) (raw : Half) (quality : Byte)
  /-- STALENESS_DEADLINE_EXPIRY (R34). -/
  | stalenessDeadlineExpiry (station : StationId)
  /-- VALVE_REPORT (R124). -/
  | valveReport (p : Port) (seq : Byte) (valve : Half) (position flags : Byte)
  /-- CREW_VALVE_REPORT (R124). -/
  | crewValveReport (p : Port) (seq : Byte) (valve : Half) (position flags : Byte)
  /-- ORDER_ACCEPT (R118). -/
  | orderAccept (p : Port) (seq tag : Byte) (valve : Half)
  /-- ORDER_DONE (R118). -/
  | orderDone (p : Port) (seq tag : Byte) (valve : Half) (position : Byte)
  /-- ORDER_FAIL (R118). -/
  | orderFail (p : Port) (seq tag : Byte) (valve : Half) (reason : Byte)
  /-- ACCEPT_DEADLINE_EXPIRY (R119), of the order with this tag. -/
  | acceptDeadlineExpiry (tag : Byte)
  /-- TRAVEL_DEADLINE_EXPIRY (R119), of the order with this tag. -/
  | travelDeadlineExpiry (tag : Byte)
  /-- CREW_DONE (R123). -/
  | crewDone (p : Port) (seq tag : Byte) (valve : Half) (position : Byte)
  /-- CREW_FAIL (R123). -/
  | crewFail (p : Port) (seq tag : Byte) (valve : Half) (reason : Byte)
  /-- CREW_TASK_DEADLINE_EXPIRY (R123), of the task with this tag. -/
  | crewTaskDeadlineExpiry (tag : Byte)
  /-- CALL (R76). -/
  | call (p : Port) (seq : Byte) (ref : Word) (segment grade place : Byte)
  /-- CALL_UPDATE (R85). -/
  | callUpdate (p : Port) (seq : Byte) (ref : Word) (state : Byte)
  /-- MADE_SAFE (R86). -/
  | madeSafe (p : Port) (seq incident : Byte)
  /-- CLOSE_INCIDENT (R87). -/
  | closeIncident (p : Port) (seq incident : Byte)
  /-- PLAN (R92). -/
  | plan (p : Port) (seq incident : Byte)
  /-- HYPOTHETICAL_RESULT (R96). -/
  | hypotheticalResult
  /-- AUTHORISE (R100). -/
  | authorise (p : Port) (seq : Byte) (plan : Half) (stage : Byte)
  /-- WINDOW_DEADLINE_EXPIRY (R102), of the plan with this number. -/
  | windowDeadlineExpiry (plan : Half)
  /-- CANCEL (R104). -/
  | cancel (p : Port) (seq : Byte) (plan : Half)
  /-- WIDEN (R107). -/
  | widen (p : Port) (seq : Byte) (plan : Half)
  /-- PROOF_DEADLINE_EXPIRY (R136), of the plan with this number. -/
  | proofDeadlineExpiry (plan : Half)
  /-- CONFIRM (R138). -/
  | confirm (p : Port) (seq : Byte) (plan : Half)
  /-- RESTORE (R139). -/
  | restore (p : Port) (seq : Byte) (plan : Half)
  /-- PUBLICATION (R64). -/
  | publication
  /-- PUBLICATION_SUPPRESSION (R39). -/
  | publicationSuppression
  /-- PUBLICATION_OUTAGES (R147). -/
  | publicationOutages
  /-- PUBLICATION_PROVING (R133). -/
  | publicationProving
  /-- RELIGHT_REPORT (R151). -/
  | relightReport (p : Port) (seq record segment : Byte) (count : Half)
  /-- CLOSE_OUTAGE (R152). -/
  | closeOutage (p : Port) (seq record : Byte)
  /-- FRAME_START (R50). -/
  | frameStart
  /-- STORE (R17). -/
  | store (p : Port) (seq : Byte)
  /-- STORE_END (R17). -/
  | storeEnd
  /-- START (R16). -/
  | start (p : Port) (seq : Byte)
  /-- LOCK (R18). -/
  | lock (p : Port) (seq : Byte)
  /-- WRITE_SEGMENT (R2). -/
  | writeSegment (p : Port) (seq segment presence zone : Byte) (customers : Half)
  /-- WRITE_VALVE (R4). -/
  | writeValve (p : Port) (seq : Byte) (valve : Half) (presence : Byte) (sideA sideB : Half)
      (kind normal noClose : Byte) (travel : Half)
  /-- WRITE_FEED (R5). -/
  | writeFeed (p : Port) (seq feed presence : Byte) (minimum deadband : Word)
  /-- WRITE_STATION (R6). -/
  | writeStation (p : Port) (seq station presence : Byte) (location zero span : Half) (fullScale : Word)
      (shift tier : Byte) (ll l h hh deadband fall : Word)
  /-- WRITE_PORT (R7). -/
  | writePort (p : Port) (seq port role : Byte) (rate : Word)
  /-- WRITE_PARAMETER (R19). -/
  | writeParameter (p : Port) (seq parameter : Byte) (value : Word)
  /-- LIMITS_WRITE (R35). -/
  | limitsWrite (p : Port) (seq station : Byte) (ll l h hh deadband fall : Word)
  /-- COLLECT (R38). -/
  | collect (p : Port) (seq station : Byte)
  /-- CLEAR_FAULT (R126). -/
  | clearFault (p : Port) (seq : Byte) (valve : Half)
  /-- ACK (R160). -/
  | ack (p : Port) (seq kind : Byte) (object : Half)
  /-- SUBSCRIBE (R164). -/
  | subscribe (p : Port) (seq count : Byte) (districts : List Byte)
  /-- SILENCE (R168). -/
  | silence (p : Port) (seq : Byte)
  /-- READ_SEGMENT (R184). -/
  | readSegment (p : Port) (seq segment : Byte)
  /-- READ_VALVE (R184). -/
  | readValve (p : Port) (seq : Byte) (valve : Half)
  /-- READ_STATION (R184). -/
  | readStation (p : Port) (seq station : Byte)
  /-- READ_PLAN (R185). -/
  | readPlan (p : Port) (seq : Byte) (plan : Half) (list start : Byte)
  /-- READ_INCIDENT (R184). -/
  | readIncident (p : Port) (seq incident start : Byte)
  /-- READ_CALL (R184). -/
  | readCall (p : Port) (seq : Byte) (ref : Word)
  /-- READ_OUTAGE (R185). -/
  | readOutage (p : Port) (seq record list start : Byte)
  /-- READ_ALARMS (R185). -/
  | readAlarms (p : Port) (seq start : Byte)
  /-- READ_PORT (R184). -/
  | readPort (p : Port) (seq port : Byte)
deriving DecidableEq, Repr

end Sys2Proof
end

