-- ==== Sys2Proof/Machine/State.lean ====
section
/-! DEFINITION. The state of the part as plain data, block by block, with the value of each piece after device reset;
the fault and refusal names; and the record of one event in progress (`Ev`). INVENTORY.md lists every field with the
rule that names it. -/

namespace Sys2Proof.Machine

/-! ## The named values of the manual -/

/-- A port's role (R7). -/
inductive Role where
  | telemetry | console | dispatch | unused
deriving DecidableEq, Repr

/-- The operating mode (section 1.4). -/
inductive Mode where
  | commissioning | operating
deriving DecidableEq, Repr

/-- A side of a valve or the location of a station: one segment or one feed point (R4, R6). -/
inductive Side where
  | seg (i : SegId)
  | feed (i : FeedId)
deriving DecidableEq, Repr

/-- The kind of a valve (R4). -/
inductive ValveKind where
  | remote | manual
deriving DecidableEq, Repr

/-- The position of a valve (R8). -/
inductive Position where
  | opened | closed | moving | unknown
deriving DecidableEq, Repr

/-- The fault of a valve (R8). -/
inductive ValveFault where
  | noFault | stuck | travelTimeout | localControl | comms
deriving DecidableEq, Repr

/-- The feed state (R5). -/
inductive FeedState where
  | accepted | doubtful | failed
deriving DecidableEq, Repr

/-- The quality of a station (R22). -/
inductive Quality where
  | noData | good | stale | failed
deriving DecidableEq, Repr

/-- The quality a READING carries (R23). -/
inductive ReadingQuality where
  | good | suspect | failed
deriving DecidableEq, Repr

/-- The clamp mark of a converted value (R25). -/
inductive Clamp where
  | none | under | over
deriving DecidableEq, Repr

/-- The band state (R28). -/
inductive Band where
  | lolo | lo | normal | hi | hihi
deriving DecidableEq, Repr

/-- The supply state of a segment (R60). -/
inductive Supply where
  | live | uncertain | isolated | dead
deriving DecidableEq, Repr

/-- The kind of a pass (R56). -/
inductive PassKind where
  | published | hypothetical
deriving DecidableEq, Repr

/-- The blocks a publication is delivered to, in order (R65). -/
inductive Reactor where
  | suppression | outages | proving
deriving DecidableEq, Repr

/-- The state of a call (R72). -/
inductive CallState where
  | opened | attended | closed
deriving DecidableEq, Repr

/-- Where an escape was smelt (R72). -/
inductive CallPlace where
  | inside | outside
deriving DecidableEq, Repr

/-- The origin of an incident (R73). -/
inductive Origin where
  | calls | pressure
deriving DecidableEq, Repr

/-- The state of an incident (R73). -/
inductive IncidentState where
  | opened | isolating | madeSafe | restoring | closed
deriving DecidableEq, Repr

/-- The mark of the plan number an incident holds (R73). -/
inductive PlanMark where
  | held | restored | cancelled
deriving DecidableEq, Repr

/-- The causes of an INCIDENT NOTICE, most pressing first (R89). -/
inductive IncidentCause where
  | opened | grown | call | grade | escalated | state | plan | closed
deriving DecidableEq, Repr

/-- The plan states, in the order of the table of section 6.2. -/
inductive PlanState where
  | computing | proposed | infeasible | authorising | executing | replanning | proving | proven | letBy
  | unproven | restoring | restored | cancelled
deriving DecidableEq, Repr

/-- The reason a plan is INFEASIBLE (R90). -/
inductive InfeasibleReason where
  | none | feedBoundary | rings | region | valves
deriving DecidableEq, Repr

/-- The causes of a PLAN NOTICE (R181). -/
inductive PlanCause where
  | created | proposed | infeasible | authorising | authorised | lapsed | stale | cancelled | replanning
  | recomputed | closure | reclose | holder | frozen | adopted | proving | unproven | proven | letBy | confirmed
  | restoring | transfer | restored
deriving DecidableEq, Repr

/-- The reopen progress of a done-list entry (R131). -/
inductive Progress where
  | notDealt | reopened | passedOn | incomplete
deriving DecidableEq, Repr

/-- Whether an order is remote or a crew task (R111). -/
inductive OrderPath where
  | remote | crew
deriving DecidableEq, Repr

/-- The action of an order (R111). -/
inductive OrderAction where
  | closeValve | openValve
deriving DecidableEq, Repr

/-- The class of an order (R114). -/
inductive OrderClass where
  | close1 | close2 | close3 | openClass
deriving DecidableEq, Repr

/-- The state of an order (R111). -/
inductive OrderState where
  | queued | sent | accepted | done | failed | timedOut
deriving DecidableEq, Repr

/-- The cause of an outage record (R145). -/
inductive OutageCause where
  | plan (n : Nat)
  | feedFailure | valveMovement | unknown
deriving DecidableEq, Repr

/-- The state of a held outage record (R145). -/
inductive OutageState where
  | active | relighting | closed
deriving DecidableEq, Repr

/-- The causes of an OUTAGE NOTICE, first of R154 first. -/
inductive OutageNoticeCause where
  | opened | merged | grew | returned | released | relit | relighting | closed | freed
deriving DecidableEq, Repr

/-- The kinds of alarm, in the order of the table of R157. -/
inductive AlarmKind where
  | pressureBand | pressureFall | stationNoData | feedFailed | valveUnplanned | valveHeldMoved | valveFault
  | planInfeasible | isolationLetBy | isolationUnproven | incidentEscalated | incidentTableFull | callTableFull
  | largeOutage | portSilent | portLost | tableWriteRefused | overflow
deriving DecidableEq, Repr

/-- The state of an alarm record (R156). -/
inductive AlarmState where
  | unackActive | ackActive | unackCleared
deriving DecidableEq, Repr

/-- The causes of an ALARM notice, in the order of R165. -/
inductive AlarmCause where
  | raised | reraised | cleared | acknowledged | removed | displaced | withdrawn
deriving DecidableEq, Repr

/-- The state of a link port (R169). -/
inductive PortState where
  | down | up | silent | lost
deriving DecidableEq, Repr

/-- The reply codes, in the order of the table of R178. -/
inductive ReplyCode where
  | ok | unknownKind | badLength | roleRefused | modeRefused | noSuchObject | stateRefused | limitsInvalid
  | tableFull | planStale | busy | locked | late | duplicate
deriving DecidableEq, Repr

/-! ## The static table (chapter 1) -/

/-- A segment record's static fields (R2). -/
structure SegStatic where
  present : Bool
  zone : Byte
  customers : Nat
deriving DecidableEq, Repr

/-- A valve record's static fields (R4). -/
structure ValveStatic where
  present : Bool
  sideA : Side
  sideB : Side
  kind : ValveKind
  normal : Position
  noClose : Bool
  travel : Nat
deriving DecidableEq, Repr

/-- A feed point record's static fields (R5). -/
structure FeedStatic where
  present : Bool
  minimum : Nat
  deadband : Nat
deriving DecidableEq, Repr

/-- Limits as a station record, a LIMITS WRITE and the live state hold them (R6, R22). -/
structure Limits where
  ll : Nat
  l : Nat
  h : Nat
  hh : Nat
  deadband : Nat
  fall : Nat
deriving DecidableEq, Repr

/-- A station record's static fields (R6). -/
structure StationStatic where
  present : Bool
  location : Side
  zero : Nat
  span : Nat
  fullScale : Nat
  shift : Nat
  tier : Nat
  limits : Limits
deriving DecidableEq, Repr

/-- A port record (R7). -/
structure PortStatic where
  role : Role
  rate : Nat
deriving DecidableEq, Repr

/-- The configuration parameters (R19). -/
structure Params where
  silence : Nat
  framePeriod : Nat
  pollBudget : Nat
  escalationCount : Nat
  escalationWindow : Nat
  largeOutage : Nat
  authWindow : Nat
  remoteLimit : Nat
  crewLimit : Nat
  acceptDeadline : Nat
  provingWindow : Nat
  provingLevel : Nat
deriving DecidableEq, Repr

/-- The static table: what the Configuration Store copies (section 1.5). -/
structure Table where
  segs : Vector SegStatic 256
  valves : Vector ValveStatic 512
  feeds : Vector FeedStatic 64
  stations : Vector StationStatic 128
  ports : Vector PortStatic 4
  params : Params
deriving DecidableEq, Repr

/-- An absent segment of an empty table. -/
def SegStatic.empty : SegStatic := ⟨false, 0, 0⟩
/-- An absent valve of an empty table: its kind is REMOTE (R13). -/
def ValveStatic.empty : ValveStatic := ⟨false, .seg 0, .seg 0, .remote, .opened, false, 0⟩
/-- An absent feed point of an empty table. -/
def FeedStatic.empty : FeedStatic := ⟨false, 0, 0⟩
/-- Limits of an absent station of an empty table. -/
def Limits.empty : Limits := ⟨0, 0, 0, 0, 0, 0⟩
/-- An absent station of an empty table. -/
def StationStatic.empty : StationStatic := ⟨false, .seg 0, 0, 0, 0, 0, 0, Limits.empty⟩
/-- A port of an empty table: CONSOLE at 19,200 bit/s (R7). -/
def PortStatic.empty : PortStatic := ⟨.console, 19200⟩
/-- The defaults of R19. -/
def Params.default : Params := ⟨10, 2000, 32, 4, 900, 2000, 120, 4, 16, 5, 600, 1000⟩

/-- The empty table of R13. -/
def Table.empty : Table where
  segs := Vector.replicate 256 SegStatic.empty
  valves := Vector.replicate 512 ValveStatic.empty
  feeds := Vector.replicate 64 FeedStatic.empty
  stations := Vector.replicate 128 StationStatic.empty
  ports := Vector.replicate 4 PortStatic.empty
  params := Params.default

/-- What the store is doing (R17): `writing` holds the port and SEQ whose OK reply waits, while its entry is held. -/
inductive StoreState where
  | idle
  | writing (reply : Option (Port × Byte))
deriving DecidableEq, Repr

/-- The Configuration Store (section 1.5). -/
structure ConfigStore where
  copy : Table
  valid : Bool
  lock : Bool
  state : StoreState
deriving DecidableEq, Repr

/-- The store as the part leaves manufacture: both marks clear (section 1.5). -/
def ConfigStore.fresh : ConfigStore := ⟨Table.empty, false, false, .idle⟩

/-! ## Live state of segments, valves, feeds and stations -/

/-- The published supply state of a segment (R2, R56). -/
structure SegLive where
  supply : Supply
  changed : Word
deriving DecidableEq, Repr

/-- The live state of a valve (R8). -/
structure ValveLive where
  position : Position
  fault : ValveFault
  claim : Option Nat
  holds : List Nat
  recloseUsed : Bool
  lastChange : Stamp
deriving DecidableEq, Repr

/-- The last converted value (R22). -/
structure Converted where
  value : Nat
  clamp : Clamp
  quality : ReadingQuality
deriving DecidableEq, Repr

/-- The excursion capture (R22, R37). -/
structure Capture where
  band : Band
  pressure : Nat
  rate : Int
  stamp : Stamp
  further : Nat
deriving DecidableEq, Repr

/-- The live state of a station (R22). -/
structure StationLive where
  quality : Quality
  converted : Option Converted
  pressure : Nat
  tPrev : Stamp
  rate : Int
  fallCount : Nat
  band : Band
  active : Limits
  waiting : Option Limits
  capture : Option Capture
  suppressed : Bool
  staleness : Option Stamp
deriving DecidableEq, Repr

/-- A segment's live fields after device reset (R2). -/
def SegLive.reset : SegLive := ⟨.uncertain, 0⟩
/-- A valve's live state after device reset, by its kind and normal position (R8). -/
def ValveLive.reset (kind : ValveKind) (normal : Position) : ValveLive where
  position := match kind with
    | .remote => .unknown
    | .manual => normal
  fault := .noFault
  claim := none
  holds := []
  recloseUsed := false
  lastChange := 0
/-- A station's live state after device reset, but for its staleness deadline (R22). -/
def StationLive.reset (limits : Limits) : StationLive where
  quality := .noData
  converted := none
  pressure := 0
  tPrev := 0
  rate := 0
  fallCount := 0
  band := .normal
  active := limits
  waiting := none
  capture := none
  suppressed := false
  staleness := none

/-! ## Poll Scheduler (R45) -/

/-- The Poll Scheduler's state (R45). -/
structure Poll where
  tiers : Vector Nat 128
  overdue : Vector Bool 128
  waiting : Option (Half × List StationId)
  listCount : Nat
  withheldCount : Nat
deriving DecidableEq, Repr

/-! ## Supply Tracer (R56, R61, R65) -/

/-- A present valve as a snapshot holds it (R61). -/
structure SnapValve where
  valve : ValveId
  sideA : Side
  sideB : Side
  position : Position
deriving DecidableEq, Repr

/-- A snapshot (R61). `order` is the model's own: the count of events taken, which settles the equal-stamp case of
R65. -/
structure Snapshot where
  segs : List SegId
  valves : List SnapValve
  feeds : List (FeedId × FeedState)
  regions : List (Nat × List SegId)
  revision : Word
  stamp : Stamp
  order : Nat
deriving DecidableEq, Repr

/-- The engine of the Supply Tracer (R56), with the snapshot of the pass it runs. -/
inductive TracerEngine where
  | idle
  | publishing (snap : Snapshot)
  | hypothetical (snap : Snapshot) (overrides : List ValveId)
deriving DecidableEq, Repr

/-- One segment of a publication: its new state and the one before (R65). -/
structure PublishedSeg where
  seg : SegId
  after : Supply
  before : Supply
deriving DecidableEq, Repr

/-- What a PUBLICATION carries (R65). -/
structure Publication where
  generation : Word
  stamp : Stamp
  revision : Word
  order : Nat
  segs : List PublishedSeg
deriving DecidableEq, Repr

/-- The Supply Tracer's state (R56), with the deliveries of R65 not yet taken by their blocks. -/
structure Tracer where
  engine : TracerEngine
  rerun : Bool
  lastKind : PassKind
  waiting : Option (List ValveId)
  generation : Word
  deliveries : List (Reactor × Publication)
deriving DecidableEq, Repr

/-- The Supply Tracer after device reset (R56). -/
def Tracer.reset : Tracer := ⟨.idle, false, .published, none, 0, []⟩

/-! ## Call Register (R72, R73, R81) -/

/-- A held call record (R72). -/
structure Call where
  ref : Word
  segment : SegId
  grade : Nat
  place : CallPlace
  arrival : Stamp
  sequence : Nat
  state : CallState
  incident : Option Nat
deriving DecidableEq, Repr

/-- A held incident (R73). Its calls are the call records that carry its number, in arrival order. -/
structure Incident where
  number : Nat
  sequence : Nat
  origin : Origin
  zone : Byte
  segments : List SegId
  grade : Nat
  escalated : Bool
  plan : Option (Nat × PlanMark)
  state : IncidentState
  openedAt : Stamp
deriving DecidableEq, Repr

/-- The Call Register. Calls stand in arrival order and incidents in opening order. -/
structure CallRegister where
  calls : List Call
  arrivalSequence : Nat
  incidents : List Incident
  lastIncident : Nat
  openingSequence : Nat
  arrivals : Vector (List Stamp) 256
deriving DecidableEq, Repr

/-- The Call Register after device reset (R72, R73, R74, R81). -/
def CallRegister.reset : CallRegister := ⟨[], 0, [], 0, 0, Vector.replicate 256 []⟩

/-! ## Isolation Planner (R90, R93, R131) -/

/-- A segment of a region and the ring at which it joined (R90). -/
structure RegionSeg where
  seg : SegId
  ring : Nat
deriving DecidableEq, Repr

/-- A close-list entry (R90). -/
structure CloseEntry where
  valve : ValveId
  rank : Nat
deriving DecidableEq, Repr

/-- A done-list entry with its reopen progress (R90, R131). -/
structure DoneEntry where
  valve : ValveId
  progress : Progress
deriving DecidableEq, Repr

/-- A held plan: the fields of R90 and the proof fields of R131. `authSequence` is 0 for none (R91).
`recloseWaiting` holds the held valves whose re-close waits for an order record (R115). -/
structure Plan where
  number : Nat
  incident : Nat
  state : PlanState
  committed : Bool
  holder : Option Port
  frozen : Bool
  authSequence : Word
  basis : Word
  target : List SegId
  region : List RegionSeg
  ringsUsed : Nat
  close : List CloseEntry
  holding : List ValveId
  shared : List ValveId
  collateral : List SegId
  customers : Nat
  authCustomers : Option Nat
  authorisations : List Port
  window : Option Stamp
  reason : InfeasibleReason
  widen : Option (List ValveId)
  rerun : Bool
  done : List DoneEntry
  incomplete : List ValveId
  awaiting : Bool
  closureStamp : Option Stamp
  awaitedGeneration : Option Word
  proofDeadline : Option Stamp
  confirmedBy : Option Port
  recloseWaiting : List ValveId
deriving DecidableEq, Repr

/-- A run of the planning engine that waits for its hypothetical result (R93, R94). -/
structure Run where
  plan : Nat
  count : Nat
  basis : Word
  region : List RegionSeg
  ringsUsed : Nat
  close : List ValveId
  holding : List ValveId
  shared : List ValveId
deriving DecidableEq, Repr

/-- The planning engine (R93). -/
inductive PlanEngine where
  | idle
  | running (run : Run)
  | draining
deriving DecidableEq, Repr

/-- The Isolation Planner. -/
structure Planner where
  plans : List Plan
  lastPlan : Nat
  authCount : Word
  queue : List Nat
  engine : PlanEngine
deriving DecidableEq, Repr

/-- The Isolation Planner after device reset (R90, R91). -/
def Planner.reset : Planner := ⟨[], 0, 0, [], .idle⟩

/-! ## Switching Controller (R111) -/

/-- An order record that is not FREE (R111). -/
structure Order where
  tag : Nat
  valve : ValveId
  path : OrderPath
  action : OrderAction
  plan : Nat
  orderClass : OrderClass
  rank : Nat
  reclose : Bool
  state : OrderState
  port : Option Port
  deadline : Option Stamp
  endStamp : Option Stamp
deriving DecidableEq, Repr

/-- The order table, the last tag assigned and the survey-pending mark (R111, R127). -/
structure Switching where
  records : Vector (Option Order) 64
  lastTag : Nat
  surveyPending : Bool
deriving DecidableEq, Repr

/-- The Switching Controller after device reset (R111). -/
def Switching.reset : Switching := ⟨Vector.replicate 64 none, 255, false⟩

/-! ## Outage Register (R145, R146) -/

/-- A segment of a relight set with its awaiting count (R145). -/
structure RelightEntry where
  seg : SegId
  awaiting : Nat
deriving DecidableEq, Repr

/-- An outage record that is not FREE (R145). -/
structure Outage where
  cause : OutageCause
  place : Byte
  off : List SegId
  relight : List RelightEntry
  customersOff : Nat
  relit : Nat
  startStamp : Stamp
  endStamp : Option Stamp
  merged : Bool
  state : OutageState
deriving DecidableEq, Repr

/-- A cause note that holds stamps (R146). The orders are the model's own: the count of events at each stamp. -/
structure CauseNote where
  firstStamp : Stamp
  firstOrder : Nat
  lastStamp : Stamp
  lastOrder : Nat
deriving DecidableEq, Repr

/-- The Outage Register (R145, R146). -/
structure OutageRegister where
  records : Vector (Option Outage) 32
  feedNote : Option CauseNote
  movementNote : Option CauseNote
deriving DecidableEq, Repr

/-- The Outage Register after device reset (R145, R146). -/
def OutageRegister.reset : OutageRegister := ⟨Vector.replicate 32 none, none, none⟩

/-! ## Alarm List (R156) -/

/-- An alarm record (R156). The object is its number as R181 carries it. -/
structure AlarmRec where
  kind : AlarmKind
  object : Nat
  place : Byte
  priority : Nat
  state : AlarmState
  raiseStamp : Stamp
  reraise : Nat
deriving DecidableEq, Repr

/-- The Alarm List (R156). -/
structure AlarmList where
  general : List AlarmRec
  overflow : Option AlarmRec
  overflowCount : Nat
  changeCount : Word
  subscriptions : Vector (List Nat) 4
  silenced : Bool
deriving DecidableEq, Repr

/-- The Alarm List after device reset (R156). -/
def AlarmList.reset : AlarmList := ⟨[], none, 0, 0, Vector.replicate 4 [15], false⟩

/-! ## Link Ports (R169) -/

/-- The receive state with the bytes of the frame being received (R169, R171). -/
inductive Receiver where
  | hunting
  | length
  | body (len : Byte) (held : List Byte)
  | check (len : Byte) (held : List Byte) (crcHigh : Option Byte)
deriving DecidableEq, Repr

/-- A link port (R7, R169). `held` counts the entries held empty for a later reply (R17) or for the reply of the
request being taken (R175). `backlog` holds the bytes still to be examined again (R171); it is empty between
events. -/
structure LinkPort where
  role : Role
  rate : Nat
  receiver : Receiver
  backlog : List Byte
  gap : Option Stamp
  state : PortState
  liveness : Option Stamp
  queue : List (List Byte)
  held : Nat
  resyncMark : Bool
  validCount : Nat
  crcCount : Nat
  lengthCount : Nat
  abortCount : Nat
  discardCount : Nat
  dropCount : Nat
deriving DecidableEq, Repr

/-- A link port after device reset, with the working values taken from its record (R7, R169). -/
def LinkPort.reset (r : PortStatic) : LinkPort where
  role := r.role
  rate := r.rate
  receiver := .hunting
  backlog := []
  gap := none
  state := .down
  liveness := none
  queue := []
  held := 0
  resyncMark := false
  validCount := 0
  crcCount := 0
  lengthCount := 0
  abortCount := 0
  discardCount := 0
  dropCount := 0

/-! ## The whole part -/

/-- The state of the part. `pending` is the queue of commands waiting, first in, first out; `events` is the model's
own count of events taken since reset. -/
structure State where
  pending : List Instr
  events : Nat
  now : Stamp
  frameNumber : Half
  nextFrame : Stamp
  mode : Mode
  table : Table
  store : ConfigStore
  revision : Word
  segLive : Vector SegLive 256
  valveLive : Vector ValveLive 512
  feedState : Vector FeedState 64
  stationLive : Vector StationLive 128
  poll : Poll
  tracer : Tracer
  calls : CallRegister
  planner : Planner
  switching : Switching
  outages : OutageRegister
  alarms : AlarmList
  ports : Vector LinkPort 4
deriving DecidableEq, Repr

/-- The part right after the device reset of a part fresh from manufacture: the store is invalid, so the mode is
COMMISSIONING with an empty table (R13), and every block holds its device reset values. -/
def State.reset : State where
  pending := []
  events := 0
  now := 0
  frameNumber := 0
  nextFrame := 2000
  mode := .commissioning
  table := Table.empty
  store := ConfigStore.fresh
  revision := 0
  segLive := Vector.replicate 256 SegLive.reset
  valveLive := Vector.replicate 512 (ValveLive.reset .remote .opened)
  feedState := Vector.replicate 64 .doubtful
  stationLive := Vector.replicate 128 (StationLive.reset Limits.empty)
  poll := ⟨Vector.replicate 128 0, Vector.replicate 128 false, none, 0, 0⟩
  tracer := Tracer.reset
  calls := CallRegister.reset
  planner := Planner.reset
  switching := Switching.reset
  outages := OutageRegister.reset
  alarms := AlarmList.reset
  ports := Vector.replicate 4 (LinkPort.reset PortStatic.empty)

/-! ## One event in progress -/

/-- One change of an alarm record in this event, with the record as the change left it (R165). -/
structure AlarmChange where
  record : AlarmRec
  cause : AlarmCause
deriving DecidableEq, Repr

/-- One change of an incident in this event, with the incident as the change left it (R89). -/
structure IncidentChange where
  incident : Incident
  cause : IncidentCause
deriving DecidableEq, Repr

/-- An event in progress: the state so far, and what the end of the event still has to do.
`bumped`: the revision has moved in this event (R12). `trigger`: a published pass is triggered (R62).
`completed`: the engine completed a pass of this kind (R67). `retier`: an input of the effective tiers changed (R49).
`resettle`: something the Switching Controller or restoration acts on changed (R113, R115, R116, R141).
`freed`: queue entries became free (R176). `wake`: the planning queue or the planning engine changed (R93). `unannounced`:
plans whose incomplete list has grown since their last notice in this event (R99). The two logs gather the changes that one
notice each reports. -/
structure Ev extends State where
  bumped : Bool
  trigger : Bool
  completed : Option PassKind
  retier : Bool
  resettle : Bool
  freed : Bool
  wake : Bool
  unannounced : List Nat
  alarmLog : List AlarmChange
  incidentLog : List IncidentChange

/-- An event begins: nothing is left over from another. -/
def State.begin (s : State) : Ev where
  toState := { s with events := s.events + 1 }
  bumped := false
  trigger := false
  completed := none
  retier := false
  resettle := false
  freed := false
  wake := false
  unannounced := []
  alarmLog := []
  incidentLog := []

/-! ## How a step can stop -/

/-- A step of this part never stops with a fault: the manual gives every command an effect in every state. The type
has no constructor. -/
inductive Fault where
deriving DecidableEq, Repr

/-- The reasons a command is turned away unmodelled. -/
inductive Refusal where
  /-- Raised by `exec` for a command whose meaning is not written yet. Safe: nothing is claimed of it. -/
  | notModelled (mnemonic : String)
deriving DecidableEq, Repr

end Sys2Proof.Machine
end

