-- ==== Sys2Proof/Machine/Operands.lean ====
section
/-! DEFINITION. The encoding of fields (R179): bytes of numbers, the code of each enumerated value, and the reading of
the fields a request carries. -/

namespace Sys2Proof.Machine

/-! ## Numbers -/

/-- A one-byte field. -/
def u8 (n : Nat) : List Byte := [BitVec.ofNat 8 n]
/-- A two-byte field, high byte first. -/
def u16 (n : Nat) : List Byte := [BitVec.ofNat 8 (n / 256), BitVec.ofNat 8 n]
/-- A four-byte field, high byte first. -/
def u32 (n : Nat) : List Byte :=
  [BitVec.ofNat 8 (n / 16777216), BitVec.ofNat 8 (n / 65536), BitVec.ofNat 8 (n / 256), BitVec.ofNat 8 n]
/-- A stamp, revision or generation. -/
def w32 (w : Word) : List Byte := u32 w.toNat
/-- A rate: four bytes in two's complement. -/
def i32 (r : Int) : List Byte := w32 (BitVec.ofInt 32 r)
/-- A mark. -/
def flag (b : Bool) : Nat := if b then 1 else 0
/-- A field that may be absent: sent as zeros when absent (R179). -/
def opt32 (w : Option Word) : List Byte := w32 (w.getD 0)
/-- A count in one byte; above 255 the byte is not stated. -/
def countByte (n : Nat) : List Byte := if n ≤ 255 then u8 n else [Config.wideCount n]
/-- A zone code from district and zone (R179). -/
def zoneCode (district zone : Nat) : Byte := BitVec.ofNat 8 (district * 16 + zone)
/-- The district of a zone code: its high four bits. -/
def district (z : Byte) : Nat := z.toNat / 16
/-- The no-place code 15.15. -/
def noPlace : Byte := 0xFF#8

/-! ## Codes of enumerated values: the position in the list where the value is first specified (R179) -/

/-- TELEMETRY, CONSOLE, DISPATCH, UNUSED (R7). -/
def Role.code : Role → Nat
  | .telemetry => 0 | .console => 1 | .dispatch => 2 | .unused => 3
/-- COMMISSIONING, OPERATING (section 1.4). -/
def Mode.code : Mode → Nat
  | .commissioning => 0 | .operating => 1
/-- PRESENT, ABSENT (R2). -/
def presenceCode (present : Bool) : Nat := if present then 0 else 1
/-- REMOTE, MANUAL (R4). -/
def ValveKind.code : ValveKind → Nat
  | .remote => 0 | .manual => 1
/-- OPEN, CLOSED, MOVING, UNKNOWN (R8). -/
def Position.code : Position → Nat
  | .opened => 0 | .closed => 1 | .moving => 2 | .unknown => 3
/-- NONE, STUCK, TRAVEL_TIMEOUT, LOCAL_CONTROL, COMMS (R8). -/
def ValveFault.code : ValveFault → Nat
  | .noFault => 0 | .stuck => 1 | .travelTimeout => 2 | .localControl => 3 | .comms => 4
/-- ACCEPTED, DOUBTFUL, FAILED (R5). -/
def FeedState.code : FeedState → Nat
  | .accepted => 0 | .doubtful => 1 | .failed => 2
/-- NO_DATA, GOOD, STALE, FAILED (R22). -/
def Quality.code : Quality → Nat
  | .noData => 0 | .good => 1 | .stale => 2 | .failed => 3
/-- GOOD, SUSPECT, FAILED (R181). -/
def ReadingQuality.code : ReadingQuality → Nat
  | .good => 0 | .suspect => 1 | .failed => 2
/-- NONE, UNDER, OVER (R22). -/
def Clamp.code : Clamp → Nat
  | .none => 0 | .under => 1 | .over => 2
/-- LOLO, LO, NORMAL, HI, HIHI (R22). -/
def Band.code : Band → Nat
  | .lolo => 0 | .lo => 1 | .normal => 2 | .hi => 3 | .hihi => 4
/-- LIVE, UNCERTAIN, ISOLATED, DEAD (R2). -/
def Supply.code : Supply → Nat
  | .live => 0 | .uncertain => 1 | .isolated => 2 | .dead => 3
/-- IDLE, PUBLISHING, HYPOTHETICAL (R56). -/
def TracerEngine.code : TracerEngine → Nat
  | .idle => 0 | .publishing _ => 1 | .hypothetical _ _ => 2
/-- INSIDE, OUTSIDE (R72). -/
def CallPlace.code : CallPlace → Nat
  | .inside => 0 | .outside => 1
/-- OPEN, ATTENDED, CLOSED (R72). -/
def CallState.code : CallState → Nat
  | .opened => 0 | .attended => 1 | .closed => 2
/-- CALLS, PRESSURE (R73). -/
def Origin.code : Origin → Nat
  | .calls => 0 | .pressure => 1
/-- OPEN, ISOLATING, MADE_SAFE, RESTORING, CLOSED (R73). -/
def IncidentState.code : IncidentState → Nat
  | .opened => 0 | .isolating => 1 | .madeSafe => 2 | .restoring => 3 | .closed => 4
/-- The plan mark of an INCIDENT NOTICE (R183). -/
def planMarkCode : Option (Nat × PlanMark) → Nat
  | none => 0
  | some (_, .held) => 1
  | some (_, .restored) => 2
  | some (_, .cancelled) => 3
/-- The causes of an INCIDENT NOTICE (R183). -/
def IncidentCause.code : IncidentCause → Nat
  | .opened => 0 | .grown => 1 | .call => 2 | .grade => 3 | .escalated => 4 | .state => 5 | .plan => 6 | .closed => 7
/-- The plan states in the order of section 6.2. -/
def PlanState.code : PlanState → Nat
  | .computing => 0 | .proposed => 1 | .infeasible => 2 | .authorising => 3 | .executing => 4 | .replanning => 5
  | .proving => 6 | .proven => 7 | .letBy => 8 | .unproven => 9 | .restoring => 10 | .restored => 11 | .cancelled => 12
/-- none, FEED_BOUNDARY, RINGS, REGION, VALVES (R90). -/
def InfeasibleReason.code : InfeasibleReason → Nat
  | .none => 0 | .feedBoundary => 1 | .rings => 2 | .region => 3 | .valves => 4
/-- The causes of a PLAN NOTICE (R181). -/
def PlanCause.code : PlanCause → Nat
  | .created => 0 | .proposed => 1 | .infeasible => 2 | .authorising => 3 | .authorised => 4 | .lapsed => 5
  | .stale => 6 | .cancelled => 7 | .replanning => 8 | .recomputed => 9 | .closure => 10 | .reclose => 11
  | .holder => 12 | .frozen => 13 | .adopted => 14 | .proving => 15 | .unproven => 16 | .proven => 17 | .letBy => 18
  | .confirmed => 19 | .restoring => 20 | .transfer => 21 | .restored => 22
/-- not dealt with, reopened, passed on, incomplete (R131). -/
def Progress.code : Progress → Nat
  | .notDealt => 0 | .reopened => 1 | .passedOn => 2 | .incomplete => 3
/-- REMOTE, CREW (R111). -/
def OrderPath.code : OrderPath → Nat
  | .remote => 0 | .crew => 1
/-- CLOSE, OPEN (R111). -/
def OrderAction.code : OrderAction → Nat
  | .closeValve => 0 | .openValve => 1
/-- CLOSE_1, CLOSE_2, CLOSE_3, OPEN (R111). -/
def OrderClass.code : OrderClass → Nat
  | .close1 => 0 | .close2 => 1 | .close3 => 2 | .openClass => 3
/-- QUEUED, SENT, ACCEPTED, DONE, FAILED, TIMED_OUT (R111). -/
def OrderState.code : OrderState → Nat
  | .queued => 0 | .sent => 1 | .accepted => 2 | .done => 3 | .failed => 4 | .timedOut => 5
/-- PLAN, FEED_FAILURE, VALVE_MOVEMENT, UNKNOWN (R145). -/
def OutageCause.code : OutageCause → Nat
  | .plan _ => 0 | .feedFailure => 1 | .valveMovement => 2 | .unknown => 3
/-- ACTIVE, RELIGHTING, CLOSED (R145). -/
def OutageState.code : OutageState → Nat
  | .active => 0 | .relighting => 1 | .closed => 2
/-- The causes of an OUTAGE NOTICE (R183). -/
def OutageNoticeCause.code : OutageNoticeCause → Nat
  | .opened => 0 | .merged => 1 | .grew => 2 | .returned => 3 | .released => 4 | .relit => 5 | .relighting => 6
  | .closed => 7 | .freed => 8
/-- The alarm kinds in the order of section 10.2. -/
def AlarmKind.code : AlarmKind → Nat
  | .pressureBand => 0 | .pressureFall => 1 | .stationNoData => 2 | .feedFailed => 3 | .valveUnplanned => 4
  | .valveHeldMoved => 5 | .valveFault => 6 | .planInfeasible => 7 | .isolationLetBy => 8 | .isolationUnproven => 9
  | .incidentEscalated => 10 | .incidentTableFull => 11 | .callTableFull => 12 | .largeOutage => 13
  | .portSilent => 14 | .portLost => 15 | .tableWriteRefused => 16 | .overflow => 17
/-- UNACK_ACTIVE, ACK_ACTIVE, UNACK_CLEARED (R156). -/
def AlarmState.code : AlarmState → Nat
  | .unackActive => 0 | .ackActive => 1 | .unackCleared => 2
/-- RAISED to WITHDRAWN (R181). -/
def AlarmCause.code : AlarmCause → Nat
  | .raised => 0 | .reraised => 1 | .cleared => 2 | .acknowledged => 3 | .removed => 4 | .displaced => 5
  | .withdrawn => 6
/-- DOWN, UP, SILENT, LOST (R169). -/
def PortState.code : PortState → Nat
  | .down => 0 | .up => 1 | .silent => 2 | .lost => 3
/-- The reply codes in the order of the table of R178. -/
def ReplyCode.code : ReplyCode → Nat
  | .ok => 0 | .unknownKind => 1 | .badLength => 2 | .roleRefused => 3 | .modeRefused => 4 | .noSuchObject => 5
  | .stateRefused => 6 | .limitsInvalid => 7 | .tableFull => 8 | .planStale => 9 | .busy => 10 | .locked => 11
  | .late => 12 | .duplicate => 13

/-- A side or location: 0 and a segment, or 1 and a feed point (R179). -/
def Side.bytes : Side → List Byte
  | .seg i => [0, BitVec.ofNat 8 i.val]
  | .feed i => [1, BitVec.ofNat 8 i.val]

/-- A port or NONE (R179). -/
def portByte : Option Port → List Byte
  | none => [0xFF]
  | some p => u8 p.val

/-! ## Reading the fields of a request -/

/-- An object number, if its slot exists. -/
def objectOf (n k : Nat) : Option (Fin n) := if h : k < n then some ⟨k, h⟩ else none

/-- A side or location, if it names a slot that exists (R1, R179). -/
def sideOf (w : Half) : Option Side :=
  match w.toNat / 256 with
  | 0 => (objectOf 256 (w.toNat % 256)).map .seg
  | 1 => (objectOf 64 (w.toNat % 256)).map .feed
  | _ => none

/-- A presence byte (R1). -/
def presenceOf (b : Byte) : Option Bool :=
  match b.toNat with
  | 0 => some true
  | 1 => some false
  | _ => none

/-- A role byte (R7). -/
def roleOf (b : Byte) : Option Role :=
  match b.toNat with
  | 0 => some .telemetry
  | 1 => some .console
  | 2 => some .dispatch
  | 3 => some .unused
  | _ => none

/-- A valve kind byte (R4). -/
def kindOf (b : Byte) : Option ValveKind :=
  match b.toNat with
  | 0 => some .remote
  | 1 => some .manual
  | _ => none

/-- A position byte of a report (R124). -/
def positionOf (b : Byte) : Option Position :=
  match b.toNat with
  | 0 => some .opened
  | 1 => some .closed
  | 2 => some .moving
  | 3 => some .unknown
  | _ => none

/-- The position of an ORDER DONE or CREW DONE, or a normal position: OPEN or CLOSED (R4, R118). -/
def endPositionOf (b : Byte) : Option Position :=
  match b.toNat with
  | 0 => some .opened
  | 1 => some .closed
  | _ => none

/-- The reason of an ORDER FAIL or CREW FAIL: STUCK, LOCAL_CONTROL or COMMS, by its code in the list of R8 (R118). -/
def reasonOf (b : Byte) : Option ValveFault :=
  match b.toNat with
  | 1 => some .stuck
  | 3 => some .localControl
  | 4 => some .comms
  | _ => none

/-- A byte that is 0 or 1 (the no-close field of WRITE VALVE). -/
def markOf (b : Byte) : Option Bool :=
  match b.toNat with
  | 0 => some false
  | 1 => some true
  | _ => none

/-- The quality of a READING: an undefined code is FAILED (R23). -/
def readingQualityOf (b : Byte) : ReadingQuality :=
  match b.toNat with
  | 0 => .good
  | 1 => .suspect
  | _ => .failed

/-- The grade of a CALL (R75). -/
def gradeOf (b : Byte) : Option Nat :=
  match b.toNat with
  | 1 => some 1
  | 2 => some 2
  | 3 => some 3
  | _ => none

/-- The place of a CALL (R75). -/
def callPlaceOf (b : Byte) : Option CallPlace :=
  match b.toNat with
  | 0 => some .inside
  | 1 => some .outside
  | _ => none

/-- The new state of a CALL UPDATE: ATTENDED or CLOSED (R85). -/
def updateStateOf (b : Byte) : Option CallState :=
  match b.toNat with
  | 1 => some .attended
  | 2 => some .closed
  | _ => none

/-- The stage of an AUTHORISE (R100). -/
inductive Stage where
  | first | second
deriving DecidableEq, Repr

/-- FIRST or SECOND (R100). -/
def stageOf (b : Byte) : Option Stage :=
  match b.toNat with
  | 0 => some .first
  | 1 => some .second
  | _ => none

/-- The alarm kinds in the order of their codes (R157). -/
def alarmKinds : List AlarmKind :=
  [.pressureBand, .pressureFall, .stationNoData, .feedFailed, .valveUnplanned, .valveHeldMoved, .valveFault,
    .planInfeasible, .isolationLetBy, .isolationUnproven, .incidentEscalated, .incidentTableFull, .callTableFull,
    .largeOutage, .portSilent, .portLost, .tableWriteRefused, .overflow]

/-- The causes of a PLAN NOTICE in the order of their codes (R181). -/
def planCauses : Vector PlanCause 23 :=
  #v[.created, .proposed, .infeasible, .authorising, .authorised, .lapsed, .stale, .cancelled, .replanning, .recomputed,
    .closure, .reclose, .holder, .frozen, .adopted, .proving, .unproven, .proven, .letBy, .confirmed, .restoring, .transfer,
    .restored]

/-- A kind byte of an ACK (R160). -/
def alarmKindOf (b : Byte) : Option AlarmKind := alarmKinds[b.toNat]?

/-- The lists READ PLAN selects (R185). -/
inductive PlanList where
  | summary | region | close | holding | shared | collateral | done | incomplete
deriving DecidableEq, Repr

/-- The list byte of READ PLAN (R185). -/
def planListOf (b : Byte) : Option PlanList :=
  [PlanList.summary, .region, .close, .holding, .shared, .collateral, .done, .incomplete][b.toNat]?

/-- The lists READ OUTAGE selects (R185). -/
inductive OutageList where
  | summary | off | relight
deriving DecidableEq, Repr

/-- The list byte of READ OUTAGE (R185). -/
def outageListOf (b : Byte) : Option OutageList :=
  [OutageList.summary, .off, .relight][b.toNat]?

/-! ## Clamping (R1) -/

/-- The nearest value of a range. -/
def clamp (lo hi n : Nat) : Nat := if n < lo then lo else if hi < n then hi else n

/-- The listed bit rates of R7, highest first. -/
def bitRates : List Nat := [921600, 460800, 230400, 115200, 57600, 38400, 19200]

/-- A written bit rate: clamped, then rounded down to a listed rate (R7). -/
def bitRateOf (n : Nat) : Nat :=
  (bitRates.find? (fun r => decide (r ≤ clamp 19200 921600 n))).getD 19200

/-- A travel limit clamped to the range of the written kind (R4). -/
def travelOf (k : ValveKind) (n : Nat) : Nat :=
  match k with
  | .remote => clamp 5 900 n
  | .manual => clamp 60 7200 n

/-- The limits of a station record, each clamped (R6). -/
def clampLimits (l : Limits) : Limits where
  ll := clamp 0 1000000 l.ll
  l := clamp 0 1000000 l.l
  h := clamp 0 1000000 l.h
  hh := clamp 0 1000000 l.hh
  deadband := clamp 0 1000000 l.deadband
  fall := clamp 1 100000 l.fall

/-- LL < L < H < HH, and D smaller than each of the three gaps (R6, R16, R35). -/
def limitsOrdered (l : Limits) : Bool :=
  decide (l.ll < l.l) && decide (l.l < l.h) && decide (l.h < l.hh) &&
    decide (l.deadband < l.l - l.ll) && decide (l.deadband < l.h - l.l) && decide (l.deadband < l.hh - l.h)

/-- The limits a LIMITS WRITE may carry (R35, check 3). -/
def limitsValid (l : Limits) : Bool :=
  decide (l.ll ≤ 1000000) && decide (l.l ≤ 1000000) && decide (l.h ≤ 1000000) && decide (l.hh ≤ 1000000) &&
    limitsOrdered l && decide (1 ≤ l.fall) && decide (l.fall ≤ 100000)

/-- A parameter written by number: the new parameters and the value stored; none for an unknown number (R19, R182). -/
def setParam (ps : Params) (parameter n : Nat) : Option (Params × Nat) :=
  match parameter with
  | 0 => let v := clamp 2 60 n; some ({ ps with silence := v }, v)
  | 1 => let v := clamp 1000 10000 n / 250 * 250; some ({ ps with framePeriod := v }, v)
  | 2 => let v := clamp 1 64 n; some ({ ps with pollBudget := v }, v)
  | 3 => let v := clamp 2 16 n; some ({ ps with escalationCount := v }, v)
  | 4 => let v := clamp 60 3600 n; some ({ ps with escalationWindow := v }, v)
  | 5 => let v := clamp 0 65535 n; some ({ ps with largeOutage := v }, v)
  | 6 => let v := clamp 30 600 n; some ({ ps with authWindow := v }, v)
  | 7 => let v := clamp 1 8 n; some ({ ps with remoteLimit := v }, v)
  | 8 => let v := clamp 1 16 n; some ({ ps with crewLimit := v }, v)
  | 9 => let v := clamp 2 30 n; some ({ ps with acceptDeadline := v }, v)
  | 10 => let v := clamp 60 3600 n; some ({ ps with provingWindow := v }, v)
  | 11 => let v := clamp 0 100000 n; some ({ ps with provingLevel := v }, v)
  | _ => none

end Sys2Proof.Machine
end

