-- ==== Sys2Proof/Machine/Ops.lean ====
section
/-! DEFINITION. The shared operations: tables, station time, the network revision, the outbound queues and replies, and
the lookups of plans, incidents and orders that every block uses. -/

namespace Sys2Proof.Machine

/-! ## Tables -/

/-- One entry of a table changed. -/
def upd {α : Type} {n : Nat} (xs : Vector α n) (i : Fin n) (f : α → α) : Vector α n :=
  xs.set i.val (f xs[i]) i.isLt

/-- Every entry of a table changed, each by its number. -/
def mapTable {α β : Type} {n : Nat} (f : Nat → α → β) (xs : Vector α n) : Vector β n :=
  ⟨(xs.toList.zipIdx.map (fun p => f p.2 p.1)).toArray, by simp⟩

/-- The numbers of the entries that meet a test, in rising order. -/
def idsWhere {α : Type} {n : Nat} (xs : Vector α n) (test : α → Bool) : List (Fin n) :=
  xs.toList.zipIdx.filterMap (fun p => if test p.1 then objectOf n p.2 else none)

/-- A list without its repeats, first kept. -/
def dedup {α : Type} [BEq α] : List α → List α → List α
  | seen, [] => seen
  | seen, x :: xs => if seen.contains x then dedup seen xs else dedup (seen ++ [x]) xs

/-- Insertion into a list sorted by `before`: after the entries that are not after it. -/
def insertSorted {α : Type} (before : α → α → Bool) (x : α) : List α → List α
  | [] => [x]
  | y :: ys => if before x y then x :: y :: ys else y :: insertSorted before x ys

/-- A list sorted by `before`; entries neither of which is before the other keep their order. -/
def sortBy {α : Type} (before : α → α → Bool) (xs : List α) : List α :=
  xs.foldl (fun acc x => insertSorted before x acc) []

/-- Numbers sorted, lowest first. -/
def sortIds {n : Nat} (xs : List (Fin n)) : List (Fin n) := sortBy (fun a b => decide (a.val < b.val)) xs

/-- A saturating increment. -/
def satInc (limit n : Nat) : Nat := if n < limit then n + 1 else n

/-! ## Station time (R20) -/

/-- A deadline a number of milliseconds from now. -/
def Ev.after (e : Ev) (ms : Nat) : Stamp := e.now + BitVec.ofNat 32 ms

/-- The time elapsed since a stamp, modulo 2^32 (R20). -/
def Ev.age (e : Ev) (t : Stamp) : Nat := (e.now - t).toNat

/-- A deadline has been reached: station time is at or past its value. Every duration is far below 2^31 ms (R20). -/
def reached (now d : Stamp) : Bool := decide ((now - d).toNat < 2147483648)

/-- A deadline that runs and has been reached. -/
def expired (now : Stamp) (d : Option Stamp) : Bool :=
  match d with
  | none => false
  | some t => reached now t

/-! ## Revision and passes -/

/-- The network revision moves once in an event (R12). -/
def Ev.bump (e : Ev) : Ev :=
  if e.bumped then e else { e with revision := e.revision + 1, bumped := true }

/-- A published pass is triggered (R62); the engine acts at the end of the event (R63). -/
def Ev.triggerPass (e : Ev) : Ev := { e with trigger := true }

/-- An input of the effective tiers has changed (R49). -/
def Ev.markTiers (e : Ev) : Ev := { e with retier := true }

/-- Something the Switching Controller or restoration acts on has changed. -/
def Ev.markSettle (e : Ev) : Ev := { e with resettle := true }

/-- A plan whose incomplete list has grown, which a notice is still to show (R99). -/
def Ev.toAnnounce (e : Ev) (n : Nat) : Ev := { e with unannounced := e.unannounced ++ [n] }

/-- A notice has shown a plan (R99). -/
def Ev.announced (e : Ev) (n : Nat) : Ev := { e with unannounced := e.unannounced.filter (fun k => k != n) }

/-! ## Link ports -/

/-- One port changed. -/
def Ev.modPort (e : Ev) (p : Port) (f : LinkPort → LinkPort) : Ev := { e with ports := upd e.ports p f }

/-- Queue entries in use, held entries among them (R169). -/
def LinkPort.entries (l : LinkPort) : Nat := l.queue.length + l.held

/-- The outbound queue has a free entry (R175, R176). -/
def LinkPort.hasRoom (l : LinkPort) : Bool := decide (l.entries < Config.queueFrames)

/-- A frame's body put on the outbound queue (R176). -/
def LinkPort.push (l : LinkPort) (body : List Byte) : LinkPort := { l with queue := l.queue ++ [body] }

/-- The port is a console and UP. -/
def LinkPort.consoleUp (l : LinkPort) : Bool := l.role == .console && l.state == .up

/-- The port is a console or a dispatch computer, and UP. -/
def LinkPort.deskUp (l : LinkPort) : Bool := (l.role == .console || l.role == .dispatch) && l.state == .up

/-- LP0 to LP3 in order. -/
def portsInOrder : List Port := [0, 1, 2, 3]

/-- The lowest-numbered port that meets a test. -/
def Ev.firstPort (e : Ev) (test : LinkPort → Bool) : Option Port := portsInOrder.find? (fun p => test e.ports[p])

/-- The telemetry port (R52): the lowest-numbered port whose working role is TELEMETRY. -/
def Ev.telemetryPort (e : Ev) : Option Port := e.firstPort (fun l => l.role == .telemetry)

/-- A frame put on a port's queue. -/
def Ev.send (e : Ev) (p : Port) (body : List Byte) : Ev := e.modPort p (fun l => l.push body)

/-- A PORT, INCIDENT, PLAN or OUTAGE NOTICE for one port: with no free entry it is dropped and counted (R176). -/
def Ev.notify (e : Ev) (p : Port) (body : List Byte) : Ev :=
  e.modPort p (fun l => if l.hasRoom then l.push body else { l with dropCount := satInc 65535 l.dropCount })

/-- A notice to every port that meets a test. -/
def Ev.notifyAll (e : Ev) (test : LinkPort → Bool) (body : List Byte) : Ev :=
  portsInOrder.foldl (fun acc p => if test acc.ports[p] then acc.notify p body else acc) e

/-- The REPLY frame (R181) on a port: it takes the entry held for it since test 1 of R175. -/
def LinkPort.reply (l : LinkPort) (body : List Byte) : LinkPort := { l with queue := l.queue ++ [body], held := l.held - 1 }

/-- The body of a REPLY (R181). -/
def replyBody (seq kind : Byte) (code : ReplyCode) (result : List Byte) : List Byte :=
  [0x80, seq, kind] ++ u8 code.code ++ result

/-- Where a reply goes: the port, the SEQ and the KIND of the request (R178). -/
structure Sender where
  port : Port
  seq : Byte
  kind : Byte
deriving DecidableEq, Repr

/-- The reply to a request (R178). -/
def Ev.reply (e : Ev) (q : Sender) (code : ReplyCode) (result : List Byte) : Ev :=
  e.modPort q.port (fun l => l.reply (replyBody q.seq q.kind code result))

/-- A refusal with an empty result. -/
def Ev.refuse (e : Ev) (q : Sender) (code : ReplyCode) : Ev := e.reply q code []

/-- The reply OK with an empty result. -/
def Ev.ok (e : Ev) (q : Sender) : Ev := e.reply q .ok []

/-- The store no longer owes a reply on this port: its held entry went with the queue (R17). -/
def StoreState.forget (s : StoreState) (p : Port) : StoreState :=
  match s with
  | .idle => .idle
  | .writing none => .writing none
  | .writing (some (q, seq)) => if q = p then .writing none else .writing (some (q, seq))

/-- A port with its queue and receive state emptied and its alarm-resync mark cleared (R177). -/
def LinkPort.cleared (l : LinkPort) : LinkPort :=
  { l with queue := [], held := 0, receiver := .hunting, backlog := [], gap := none, resyncMark := false }

/-- A port reset (R177). Its entries become free, so the frames that wait may go (R176). -/
def Ev.portReset (e : Ev) (p : Port) : Ev :=
  { (e.modPort p LinkPort.cleared).markSettle with store := { e.store with state := e.store.state.forget p } }

/-! ## Lookups -/

/-- The present segment a byte names. -/
def Table.presentSeg (t : Table) (b : Byte) : Option SegId :=
  (objectOf 256 b.toNat).filter (fun i => t.segs[i].present)

/-- The present valve a field names. -/
def Table.presentValve (t : Table) (w : Half) : Option ValveId :=
  (objectOf 512 w.toNat).filter (fun i => t.valves[i].present)

/-- The present station a byte names. -/
def Table.presentStation (t : Table) (b : Byte) : Option StationId :=
  (objectOf 128 b.toNat).filter (fun i => t.stations[i].present)

/-- The held plan of a number. -/
def Ev.plan? (e : Ev) (n : Nat) : Option Plan := e.planner.plans.find? (fun p => p.number == n)

/-- The held incident of a number. -/
def Ev.incident? (e : Ev) (n : Nat) : Option Incident := e.calls.incidents.find? (fun i => i.number == n)

/-- The planner changed. -/
def Ev.modPlanner (e : Ev) (f : Planner → Planner) : Ev := { e with planner := f e.planner }

/-- One held plan changed. -/
def Ev.modPlan (e : Ev) (n : Nat) (f : Plan → Plan) : Ev :=
  e.modPlanner (fun pl => { pl with plans := pl.plans.map (fun p => if p.number == n then f p else p) })

/-- The Call Register changed. -/
def Ev.modCalls (e : Ev) (f : CallRegister → CallRegister) : Ev := { e with calls := f e.calls }

/-- One held incident changed. -/
def Ev.modIncident (e : Ev) (n : Nat) (f : Incident → Incident) : Ev :=
  e.modCalls (fun c => { c with incidents := c.incidents.map (fun i => if i.number == n then f i else i) })

/-- A change of a held incident that its INCIDENT NOTICE reports (R89). -/
def Ev.logIncident (e : Ev) (n : Nat) (c : IncidentCause) : Ev :=
  match e.incident? n with
  | none => e
  | some i => { e with incidentLog := e.incidentLog ++ [⟨i, c⟩] }

/-- The grade an incident has now; 3 where no such incident is held. -/
def Ev.gradeOfIncident (e : Ev) (n : Nat) : Nat :=
  match e.incident? n with
  | none => 3
  | some i => i.grade

/-- The zone code of an incident; no place where none is held. -/
def Ev.zoneOfIncident (e : Ev) (n : Nat) : Byte :=
  match e.incident? n with
  | none => noPlace
  | some i => i.zone

/-- The segments of a plan's region. -/
def Plan.segs (p : Plan) : List SegId := p.region.map (fun r => r.seg)

/-- How far back from the count now an authorisation sequence lies, counting only 1 to 4,294,967,295 (R91): the
earlier is the one with the greater distance. -/
def authDistance (count seq : Word) : Nat :=
  if seq.toNat ≤ count.toNat then count.toNat - seq.toNat else count.toNat + 4294967295 - seq.toNat

/-- Held plans in authorisation order, earliest first (R91, R115). -/
def Ev.plansInOrder (e : Ev) : List Plan :=
  sortBy (fun a b => decide (authDistance e.planner.authCount b.authSequence <
    authDistance e.planner.authCount a.authSequence)) e.planner.plans

/-- A count that passes from its last value to 1 and skips 0 (R56, R91). -/
def nextSkipZero (w : Word) : Word := if w = 4294967295#32 then 1#32 else w + 1#32

/-- The Switching Controller changed. -/
def Ev.modSwitching (e : Ev) (f : Switching → Switching) : Ev := { e with switching := f e.switching }

/-- QUEUED, SENT and ACCEPTED are the non-final states (R111). -/
def OrderState.nonFinal (s : OrderState) : Bool := s == .queued || s == .sent || s == .accepted

/-- SENT and ACCEPTED are in flight (R111). -/
def OrderState.inFlight (s : OrderState) : Bool := s == .sent || s == .accepted

/-- The first record of the order table that meets a test. -/
def Ev.order? (e : Ev) (test : Order → Bool) : Option Order :=
  e.switching.records.toList.findSome? (fun r => r.filter test)

/-- The order records that meet a test, in table order. -/
def Ev.ordersWhere (e : Ev) (test : Order → Bool) : List Order :=
  e.switching.records.toList.filterMap (fun r => r.filter test)

/-- The non-final order of a valve: no valve has more than one (R111). -/
def Ev.valveOrder? (e : Ev) (v : ValveId) : Option Order := e.order? (fun o => o.valve == v && o.state.nonFinal)

/-- Every order record that meets a test changed; a record taken to none becomes FREE. -/
def Ev.modOrders (e : Ev) (test : Order → Bool) (f : Order → Option Order) : Ev :=
  (e.modSwitching (fun sw => { sw with
    records := mapTable (fun _ r => r.bind (fun o => if test o then f o else some o)) sw.records })).markSettle

/-! ## Places (R157) -/

/-- The zone code of a present segment, otherwise the no-place code. -/
def segPlace (t : Table) (i : SegId) : Byte := if t.segs[i].present then t.segs[i].zone else noPlace

/-- The place of a station (R157). -/
def stationPlace (t : Table) (i : StationId) : Byte :=
  match t.stations[i].location with
  | .seg s => segPlace t s
  | .feed _ => noPlace

/-- The place a side gives, if the side is a present segment. -/
def sidePlace (t : Table) (s : Side) : Option Byte :=
  match s with
  | .seg i => if t.segs[i].present then some t.segs[i].zone else none
  | .feed _ => none

/-- The place of a valve: side A if it is a present segment, otherwise side B, otherwise none (R157). -/
def valvePlace (t : Table) (v : ValveId) : Byte :=
  match sidePlace t t.valves[v].sideA with
  | some z => z
  | none => (sidePlace t t.valves[v].sideB).getD noPlace

/-- The present station at a location; a feed's outlet station is the one at the feed (R3). -/
def stationsAt (t : Table) (l : Side) : List StationId :=
  idsWhere t.stations (fun s => s.present && s.location == l)

end Sys2Proof.Machine
end

