-- ==== Sys2Proof/Machine/Flags.lean ====
section
/-! DEFINITION. The alarm records and the panel: what a raise, a clear, a withdrawal and an acknowledgement do to the
list (R158 to R163), and what the lamps and the horn show (R167, R168). -/

namespace Sys2Proof.Machine

/-- The Alarm List changed. -/
def Ev.modAlarms (e : Ev) (f : AlarmList → AlarmList) : Ev := { e with alarms := f e.alarms }

/-- A record is of this kind and object. -/
def AlarmRec.is (r : AlarmRec) (k : AlarmKind) (obj : Nat) : Bool := r.kind == k && r.object == obj

/-- The general record of a kind and object; the list never holds two (R158). -/
def AlarmList.find (a : AlarmList) (k : AlarmKind) (obj : Nat) : Option AlarmRec := a.general.find? (fun r => r.is k obj)

/-- The general records without the one of a kind and object. -/
def AlarmList.without (a : AlarmList) (k : AlarmKind) (obj : Nat) : List AlarmRec :=
  a.general.filter (fun r => !r.is k obj)

/-- A change of a record: the change count moves once in an event (R156), and the change is kept for its notice. -/
def Ev.logAlarm (e : Ev) (r : AlarmRec) (c : AlarmCause) : Ev :=
  { e.modAlarms (fun a => if e.alarmLog.isEmpty then { a with changeCount := a.changeCount + 1 } else a) with
    alarmLog := e.alarmLog ++ [⟨r, c⟩] }

/-- The OVERFLOW record raised or re-raised (R163), at a lost raise. -/
def Ev.raiseOverflow (e : Ev) : Ev :=
  let r : AlarmRec := match e.alarms.overflow with
    | none => ⟨.overflow, 0, noPlace, 1, .unackActive, e.now, 0⟩
    | some o => { o with state := .unackActive, raiseStamp := e.now, reraise := satInc 255 o.reraise }
  let c : AlarmCause := if e.alarms.overflow.isSome then .reraised else .raised
  (e.modAlarms (fun a => { a with
    overflow := some r, overflowCount := satInc 65535 a.overflowCount, silenced := false })).logAlarm r c

/-- A general record has become free: the OVERFLOW condition is cleared (R161, R163). -/
def Ev.generalFreed (e : Ev) : Ev :=
  match e.alarms.overflow with
  | none => e
  | some o =>
    match o.state with
    | .unackActive =>
      let r := { o with state := .unackCleared }
      (e.modAlarms (fun a => { a with overflow := some r })).logAlarm r .cleared
    | .ackActive => (e.modAlarms (fun a => { a with overflow := none, overflowCount := 0 })).logAlarm o .removed
    | .unackCleared => e

/-- A raise clears the silenced mark when its priority is 1 (R158, R168). -/
def Ev.unsilence (e : Ev) (priority : Nat) : Ev :=
  e.modAlarms (fun a => if priority = 1 then { a with silenced := false } else a)

/-- A new general record at the end of the raise order (R158). -/
def Ev.newAlarm (e : Ev) (r : AlarmRec) : Ev :=
  (e.modAlarms (fun a => { a with general := a.general ++ [r] })).logAlarm r .raised

/-- A raise (R158, R162): a re-raise of the record held, a new record, a displacement of the oldest UNACK_CLEARED
record, or a lost raise. At a displacement the new record is made before OVERFLOW is cleared (the model's choice,
notes/assumptions/39.md). -/
def Ev.raise (e : Ev) (k : AlarmKind) (obj priority : Nat) (place : Byte) : Ev :=
  let fresh : AlarmRec := ⟨k, obj, place, priority, .unackActive, e.now, 0⟩
  let e' := match e.alarms.find k obj with
    | some o =>
      let r := { fresh with reraise := satInc 255 o.reraise }
      (e.modAlarms (fun a => { a with general := a.without k obj ++ [r] })).logAlarm r .reraised
    | none =>
      if e.alarms.general.length < Config.generalAlarms then e.newAlarm fresh
      else match e.alarms.general.find? (fun (r : AlarmRec) => r.state == AlarmState.unackCleared) with
        | some old =>
          (((e.modAlarms (fun a => { a with general := a.without old.kind old.object })).logAlarm old .displaced).newAlarm
            fresh).generalFreed
        | none => e.raiseOverflow
  e'.unsilence priority

/-- A clear (R159). -/
def Ev.clear (e : Ev) (k : AlarmKind) (obj : Nat) : Ev :=
  match e.alarms.find k obj with
  | none => e
  | some o =>
    match o.state with
    | .unackActive =>
      let r := { o with state := .unackCleared }
      (e.modAlarms (fun a => { a with general := a.general.map (fun x => if x.is k obj then r else x) })).logAlarm r .cleared
    | .ackActive =>
      ((e.modAlarms (fun a => { a with general := a.without k obj })).logAlarm o .removed).generalFreed
    | .unackCleared => e

/-- A raise-only condition: raised and cleared in the same event (R158). -/
def Ev.raiseOnly (e : Ev) (k : AlarmKind) (obj priority : Nat) (place : Byte) : Ev :=
  (e.raise k obj priority place).clear k obj

/-- A withdrawal: the record leaves whatever its state and without acknowledgement (R161). -/
def Ev.withdrawAlarm (e : Ev) (k : AlarmKind) (obj : Nat) : Ev :=
  match e.alarms.find k obj with
  | none => e
  | some o => ((e.modAlarms (fun a => { a with general := a.without k obj })).logAlarm o .withdrawn).generalFreed

/-- The record an ACK names, the OVERFLOW record among them (R160). -/
def AlarmList.held (a : AlarmList) (k : AlarmKind) (obj : Nat) : Option AlarmRec :=
  match k with
  | .overflow => a.overflow.filter (fun r => r.is k obj)
  | _ => a.find k obj

/-- The effect of an ACK on the OVERFLOW record (R160, R163). -/
def Ev.ackOverflow (e : Ev) (o : AlarmRec) : Ev :=
  match o.state with
  | .unackActive =>
    let r := { o with state := .ackActive }
    (e.modAlarms (fun a => { a with overflow := some r })).logAlarm r .acknowledged
  | .unackCleared => (e.modAlarms (fun a => { a with overflow := none, overflowCount := 0 })).logAlarm o .removed
  | .ackActive => e

/-- The effect of an ACK on a general record (R160). -/
def Ev.ackGeneral (e : Ev) (o : AlarmRec) : Ev :=
  match o.state with
  | .unackActive =>
    let r := { o with state := .ackActive }
    (e.modAlarms (fun a => { a with
      general := a.general.map (fun x => if x.is o.kind o.object then r else x) })).logAlarm r .acknowledged
  | .unackCleared =>
    ((e.modAlarms (fun a => { a with general := a.without o.kind o.object })).logAlarm o .removed).generalFreed
  | .ackActive => e

/-! ## The panel -/

/-- Every record held, the OVERFLOW record first (R185). -/
def AlarmList.all (a : AlarmList) : List AlarmRec := a.overflow.toList ++ a.general

/-- The pattern of a lamp (R167). -/
inductive Lamp where
  | off | steady | slow | fast
deriving DecidableEq, Repr

/-- Lamp `d` shows the most pressing state among the records of its district (R167). -/
def AlarmList.lamp (a : AlarmList) (d : Fin 16) : Lamp :=
  let rs := a.all.filter (fun r => district r.place == d.val)
  if rs.any (fun r => r.state == .unackActive) then .fast
  else if rs.any (fun r => r.state == .unackCleared) then .slow
  else if rs.any (fun r => r.state == .ackActive) then .steady
  else .off

/-- Whether a lamp is lit at a station time (R167). -/
def Lamp.lit (l : Lamp) (now : Stamp) : Bool :=
  match l with
  | .off => false
  | .steady => true
  | .slow => decide (now.toNat % 2000 < 1000)
  | .fast => decide (now.toNat % 500 < 250)

/-- The horn sounds while some record of priority 1 is UNACK_ACTIVE and the silenced mark is clear (R168). -/
def AlarmList.horn (a : AlarmList) : Bool :=
  !a.silenced && a.all.any (fun r => r.priority == 1 && r.state == .unackActive)

/-- The lamp outputs of the panel. -/
def State.lamp (s : State) (d : Fin 16) : Lamp := s.alarms.lamp d
/-- The horn output of the panel. -/
def State.horn (s : State) : Bool := s.alarms.horn

end Sys2Proof.Machine
end

