-- ==== Sys2Proof/Machine/Notices.lean ====
section
/-! DEFINITION. The notices the part sends of its own accord and their layouts (R181, R183, R55, R165, R166, R174). -/

namespace Sys2Proof.Machine

/-! ## To the telemetry port and to dispatch -/

/-- POLL LIST (R55, R181). -/
def pollListBody (frame : Half) (stations : List StationId) : List Byte :=
  [0x90, 0] ++ u16 frame.toNat ++ countByte stations.length ++ stations.map (fun i => BitVec.ofNat 8 i.val)

/-- ORDER (R116, R181). -/
def orderBody (o : Order) (travel : Nat) : List Byte :=
  [0x91, 0] ++ u8 o.tag ++ u16 o.valve.val ++ u8 o.action.code ++ u16 travel

/-- SURVEY (R127, R183). -/
def surveyBody : List Byte := [0x92, 0]

/-- CREW TASK (R117, R183). -/
def crewTaskBody (o : Order) (place : Byte) (travel : Nat) : List Byte :=
  [0x93, 0] ++ u8 o.tag ++ u16 o.valve.val ++ u8 o.action.code ++ [place] ++ u16 travel

/-! ## PORT NOTICE and ALARM RESYNC -/

/-- PORT NOTICE (R174), its fields in the order listed. -/
def portNoticeBody (p : Port) (role : Role) (old new : PortState) (now : Stamp) (reset : Bool) : List Byte :=
  [0x94, 0] ++ u8 p.val ++ u8 role.code ++ u8 old.code ++ u8 new.code ++ w32 now ++ u8 (flag reset)

/-- The numbers an ALARM RESYNC carries of records in a state. -/
def AlarmList.countIn (a : AlarmList) (s : AlarmState) : Nat := (a.general.filter (fun r => r.state == s)).length

/-- The OVERFLOW fields of an ALARM RESYNC: held or not, and in which state. -/
def overflowBytes (o : Option AlarmRec) : List Byte :=
  match o with
  | none => [0, 0]
  | some r => [1] ++ u8 r.state.code

/-- ALARM RESYNC (R166), its fields in the order listed. -/
def alarmResyncBody (a : AlarmList) : List Byte :=
  [0x99, 0] ++ w32 a.changeCount ++ countByte a.general.length ++ countByte (a.countIn .unackActive) ++
    countByte (a.countIn .ackActive) ++ countByte (a.countIn .unackCleared) ++ u16 a.overflowCount ++
    overflowBytes a.overflow ++
    countByte (a.all.filter (fun r => r.priority == 1 && r.state == .unackActive)).length ++
    u8 (flag a.horn) ++ u8 (flag a.silenced)

/-- An ALARM RESYNC for a port: with no free entry the alarm-resync mark is set (R166, R176). -/
def Ev.resync (e : Ev) (p : Port) : Ev :=
  e.modPort p (fun l =>
    if l.hasRoom then { l.push (alarmResyncBody e.alarms) with resyncMark := false } else { l with resyncMark := true })

/-- A PORT NOTICE to every console that is UP after the event (R174). -/
def Ev.portNotice (e : Ev) (p : Port) (old new : PortState) (reset : Bool) : Ev :=
  e.notifyAll LinkPort.consoleUp (portNoticeBody p e.ports[p].role old new e.now reset)

/-! ## PLAN NOTICE -/

/-- The number of authorisations a plan needs, found at this event (R101). -/
def Ev.needed (e : Ev) (p : Plan) : Nat :=
  if p.customers ≥ e.table.params.largeOutage ∧ e.gradeOfIncident p.incident ≠ 1 then 2 else 1

/-- The flags of a PLAN NOTICE: frozen, committed, incomplete, window deadline present (R181). -/
def Plan.noticeFlags (p : Plan) : Nat :=
  flag p.frozen + 2 * flag p.committed + 4 * flag (p.state == .restored && !p.incomplete.isEmpty) +
    8 * flag p.window.isSome

/-- The fields of a PLAN NOTICE from its holder on (R181). -/
def Ev.planFields (e : Ev) (p : Plan) : List Byte :=
  portByte p.holder ++ u8 p.noticeFlags ++ w32 p.authSequence ++ w32 p.basis ++ u32 p.customers ++
    u8 (if p.state = .authorising then 2 else e.needed p) ++ u8 p.authorisations.length ++ opt32 p.window ++
    u8 p.reason.code ++ u8 p.ringsUsed ++ countByte p.region.length ++ countByte p.collateral.length ++
    countByte p.close.length ++ countByte p.holding.length ++ countByte p.shared.length ++ countByte p.done.length ++
    countByte p.incomplete.length

/-- PLAN NOTICE (R99, R181). -/
def Ev.planNoticeBody (e : Ev) (p : Plan) (c : PlanCause) : List Byte :=
  [0x96, 0] ++ u16 p.number ++ u8 p.incident ++ u8 p.state.code ++ u8 c.code ++ e.planFields p

/-- A PLAN NOTICE of a plan record to every console that is UP (R99). It shows whatever of the plan had not been announced in
this event. -/
def Ev.planNoticeOf (e : Ev) (p : Plan) (c : PlanCause) : Ev :=
  (e.notifyAll LinkPort.consoleUp (e.planNoticeBody p c)).announced p.number

/-- A PLAN NOTICE of a held plan (R99). -/
def Ev.planNotice (e : Ev) (n : Nat) (c : PlanCause) : Ev :=
  match e.plan? n with
  | none => e
  | some p => e.planNoticeOf p c

/-- The cause sent where the manual names none (notes/assumptions/46.md). -/
def Ev.unstatedCause (e : Ev) (n : Nat) : PlanCause := planCauses[Config.unstatedPlanCause e.events n]

/-- A PLAN NOTICE of each plan whose incomplete list this event has lengthened, where no other notice of the event has shown
it (R99; notes/assumptions/46.md). -/
def Ev.announceIncomplete (e : Ev) : Ev :=
  (dedup [] e.unannounced).foldl (fun acc n => acc.planNotice n (acc.unstatedCause n)) e

/-! ## INCIDENT NOTICE -/

/-- The calls of an incident, in arrival order (R73). -/
def CallRegister.callsOf (c : CallRegister) (n : Nat) : List Call := c.calls.filter (fun x => x.incident == some n)

/-- INCIDENT NOTICE (R89, R183), with the calls counted in it. -/
def incidentNoticeBody (cs : List Call) (i : Incident) (cause : IncidentCause) : List Byte :=
  [0x95, 0] ++ u8 i.number ++ u8 cause.code ++ u8 i.origin.code ++ [i.zone] ++ u8 i.grade ++ u8 (flag i.escalated) ++
    u8 i.state.code ++ u16 ((i.plan.map (fun x => x.1)).getD 0) ++ u8 (planMarkCode i.plan) ++ countByte cs.length ++
    countByte (cs.filter (fun x => x.state == .opened)).length ++
    countByte (cs.filter (fun x => x.state == .attended)).length ++
    countByte (cs.filter (fun x => x.state == .closed)).length ++
    countByte (cs.filter (fun x => x.place == .inside)).length ++ countByte i.segments.length ++
    i.segments.map (fun s => BitVec.ofNat 8 s.val)

/-- The changes of one incident in the log. An incident is told by its opening sequence, since a number may be used again
in the event that frees it (R74, R79). -/
def incidentChangesOf (sequence : Nat) (log : List IncidentChange) : List IncidentChange :=
  log.filter (fun c => c.incident.sequence == sequence)

/-- The first cause of R89 among the changes of one incident. -/
def firstIncidentCause (first : IncidentCause) (log : List IncidentChange) : IncidentCause :=
  log.foldl (fun acc c => if c.cause.code < acc.code then c.cause else acc) first

/-- The notice of an incident changed in this event. An incident still held is shown as it stands after the event; a
closed one as its close left it, its call records freed (R87). -/
def CallRegister.noticeOf (c : CallRegister) (last : Incident) (cause : IncidentCause) : List Byte :=
  match c.incidents.find? (fun i => i.sequence == last.sequence) with
  | some i => incidentNoticeBody (c.callsOf i.number) i cause
  | none => incidentNoticeBody [] last cause

/-- One INCIDENT NOTICE for each incident changed (R89), in the order of their first changes in the event: R89 names no order, and
this one is the model's choice (notes/assumptions/13.md). -/
def Ev.sendIncidentNotices (e : Ev) : Ev :=
  let sequences := dedup [] (e.incidentLog.map (fun c => c.incident.sequence))
  sequences.foldl (fun acc n =>
    match (incidentChangesOf n e.incidentLog).getLast? with
    | none => acc
    | some last =>
      acc.notifyAll LinkPort.deskUp (acc.calls.noticeOf last.incident
        (firstIncidentCause last.cause (incidentChangesOf n e.incidentLog)))) e

/-- The INCIDENT NOTICEs of what has changed so far in the event, sent at a step whose rule places them (R92); the end of the
event sends those of later changes. -/
def Ev.incidentNoticesNow (e : Ev) : Ev := { e.sendIncidentNotices with incidentLog := [] }

/-! ## ALARM notices -/

/-- ALARM notice (R165, R181). `left`: the record has left the list. -/
def alarmBody (a : AlarmList) (r : AlarmRec) (left : Bool) (c : AlarmCause) (redirected : Bool) : List Byte :=
  [0x98, 0] ++ u8 r.kind.code ++ u16 r.object ++ [r.place] ++ u8 r.priority ++
    (if left then [0xFF] else u8 r.state.code) ++ u8 c.code ++ u8 r.reraise ++ w32 r.raiseStamp ++ w32 a.changeCount ++
    u16 a.overflowCount ++ u8 (flag redirected)

/-- A console port matches a district (R164). -/
def Ev.matchesDistrict (e : Ev) (p : Port) (d : Nat) : Bool :=
  e.alarms.subscriptions[p].contains d || e.alarms.subscriptions[p].contains 15

/-- The ports an ALARM notice goes to, and its redirected flag (R165). -/
def Ev.alarmRoute (e : Ev) (d : Nat) : List Port × Bool :=
  let consoles := portsInOrder.filter (fun p => e.ports[p].consoleUp)
  let matching := consoles.filter (fun p => e.matchesDistrict p d)
  if d = 15 then (consoles, false)
  else if matching.isEmpty then (consoles, true)
  else (matching, false)

/-- An ALARM notice for a port: with no free entry the alarm-resync mark is set (R165, R176). -/
def Ev.sendAlarm (e : Ev) (body : List Byte) (p : Port) : Ev :=
  e.modPort p (fun l => if l.hasRoom then l.push body else { l with resyncMark := true })

/-- The changes of one record in the log. -/
def alarmChangesOf (k : AlarmKind) (obj : Nat) (log : List AlarmChange) : List AlarmChange :=
  log.filter (fun c => c.record.is k obj)

/-- The first cause of R165 among the changes of one record. -/
def firstAlarmCause (first : AlarmCause) (log : List AlarmChange) : AlarmCause :=
  log.foldl (fun acc c => if c.cause.code < acc.code then c.cause else acc) first

/-- One ALARM notice for each record changed, in the order of the changes (R165). A record changed more than once takes the place
of its first change (the model's choice, notes/assumptions/13.md). A record that leaves and one that is made anew with the same
kind and object in one event have one notice between them (the model's choice, notes/assumptions/72.md). -/
def Ev.sendAlarmNotices (e : Ev) : Ev :=
  let keys := dedup [] (e.alarmLog.map (fun c => (c.record.kind, c.record.object)))
  keys.foldl (fun acc key =>
    match (alarmChangesOf key.1 key.2 e.alarmLog).getLast? with
    | none => acc
    | some last =>
      let now := acc.alarms.held key.1 key.2
      let r := now.getD last.record
      let route := acc.alarmRoute (district r.place)
      let body := alarmBody acc.alarms r now.isNone
        (firstAlarmCause last.cause (alarmChangesOf key.1 key.2 e.alarmLog)) route.2
      route.1.foldl (fun a p => a.sendAlarm body p) acc) e

end Sys2Proof.Machine
end

