-- ==== Sys2Proof/Machine/Tracer.lean ====
section
/-! DEFINITION. The Supply Tracer's arithmetic and its engine: connection (R57 to R60), depth (R69), the snapshot (R61),
and what the engine does next (R63, R67). -/

namespace Sys2Proof.Machine

/-! ## Connection -/

/-- A link of the graph: the two sides of a valve that carries gas in a pass. -/
abbrev Link := Side × Side

/-- The segment at the far side of a link from a side that meets a test. -/
def farSeg (from? : Side → Bool) (l : Link) : List SegId :=
  (match l.2 with
    | .seg b => if from? l.1 then [b] else []
    | .feed _ => []) ++
  (match l.1 with
    | .seg a => if from? l.2 then [a] else []
    | .feed _ => [])

/-- The segments one link away from the sides that meet a test, without repeats. -/
def oneLink (links : List Link) (from? : Side → Bool) : List SegId := dedup [] (links.flatMap (farSeg from?))

/-- A side is a segment of a list. -/
def sideIn (segs : List SegId) (s : Side) : Bool :=
  match s with
  | .seg i => segs.contains i
  | .feed _ => false

/-- A side is a feed point of a list. -/
def sideFeed (feeds : List FeedId) (s : Side) : Bool :=
  match s with
  | .seg _ => false
  | .feed f => feeds.contains f

/-- Breadth-first search from a frontier: the segments reached, each with its distance in links. `fuel` bounds the
distance; 256 suffices for 256 segments. -/
def spread (links : List Link) : Nat → Nat → List SegId → List (SegId × Nat) → List (SegId × Nat)
  | 0, _, _, acc => acc
  | _, _, [], acc => acc
  | fuel + 1, d, frontier, acc =>
    let acc' := acc ++ frontier.map (fun s => (s, d))
    let next := (oneLink links (sideIn frontier)).filter (fun s => !(acc'.map (fun x => x.1)).contains s)
    spread links fuel (d + 1) next acc'

/-- The segments reached from some feeds over some links, each with its depth (R58, R69). A path begins at a feed and
never passes through one. -/
def reach (links : List Link) (feeds : List FeedId) : List (SegId × Nat) :=
  spread links 256 1 (oneLink links (sideFeed feeds)) []

/-! ## Snapshots (R61) -/

/-- A committed plan (R60): committed, and not yet ended. -/
def Plan.isCommitted (p : Plan) : Bool := p.committed

/-- The snapshot of the network as it stands (R61). -/
def Ev.snapshot (e : Ev) : Snapshot where
  segs := idsWhere e.table.segs (fun s => s.present)
  valves := (idsWhere e.table.valves (fun v => v.present)).map (fun v =>
    ⟨v, e.table.valves[v].sideA, e.table.valves[v].sideB, e.valveLive[v].position⟩)
  feeds := (idsWhere e.table.feeds (fun f => f.present)).map (fun f => (f, e.feedState[f]))
  regions := (e.planner.plans.filter Plan.isCommitted).map (fun p => (p.number, p.segs))
  revision := e.revision
  stamp := e.now
  order := e.events

/-- A side names an object present in the snapshot. -/
def Snapshot.hasSide (s : Snapshot) : Side → Bool
  | .seg i => s.segs.contains i
  | .feed f => (s.feeds.map (fun x => x.1)).contains f

/-- A side is a feed point. -/
def Side.isFeed : Side → Bool
  | .seg _ => false
  | .feed _ => true

/-- A valve is an edge when both its sides name present objects, at most one is a feed point, and they differ (R57). -/
def Snapshot.isEdge (s : Snapshot) (v : SnapValve) : Bool :=
  s.hasSide v.sideA && s.hasSide v.sideB && !(v.sideA.isFeed && v.sideB.isFeed) && v.sideA != v.sideB

/-- The edges whose position meets a test. -/
def Snapshot.links (s : Snapshot) (pos : Position → Bool) : List Link :=
  (s.valves.filter (fun v => s.isEdge v && pos v.position)).map (fun v => (v.sideA, v.sideB))

/-- The feeds whose state meets a test. -/
def Snapshot.sources (s : Snapshot) (test : FeedState → Bool) : List FeedId :=
  (s.feeds.filter (fun f => test f.2)).map (fun f => f.1)

/-- A position that is OPEN (R58). -/
def Position.isOpen (p : Position) : Bool := p == .opened
/-- A position through which gas may pass (R59). -/
def Position.mayPass (p : Position) : Bool := p != .closed
/-- A feed that can be counted on (R58). -/
def FeedState.sure (f : FeedState) : Bool := f == .accepted
/-- A feed that may give gas (R59). -/
def FeedState.possible (f : FeedState) : Bool := f != .failed

/-- The definitely connected segments, each with its depth (R58, R69). -/
def Snapshot.definite (s : Snapshot) : List (SegId × Nat) := reach (s.links Position.isOpen) (s.sources FeedState.sure)

/-- The possibly connected segments (R59). -/
def Snapshot.possible (s : Snapshot) : List (SegId × Nat) :=
  reach (s.links Position.mayPass) (s.sources FeedState.possible)

/-- A segment is among those reached. -/
def reached? (r : List (SegId × Nat)) (i : SegId) : Bool := (r.map (fun x => x.1)).contains i

/-- A segment lies in the region of a committed plan of the snapshot (R60). -/
def Snapshot.inRegion (s : Snapshot) (i : SegId) : Bool := s.regions.any (fun r => r.2.contains i)

/-- The supply state of a segment: the first line of R60 that applies, from the connected segments. -/
def supplyFrom (definite possible : List (SegId × Nat)) (s : Snapshot) (i : SegId) : Supply :=
  if reached? definite i then .live
  else if reached? possible i then .uncertain
  else if s.inRegion i then .isolated
  else .dead

/-- The supply state a published pass finds for a segment (R60). -/
def Snapshot.supply (s : Snapshot) (i : SegId) : Supply := supplyFrom s.definite s.possible s i

/-- The overrides of a hypothetical pass applied: each present valve among them counts as CLOSED (R68). -/
def Snapshot.override (s : Snapshot) (overrides : List ValveId) : Snapshot :=
  { s with valves := s.valves.map (fun v => if overrides.contains v.valve then { v with position := .closed } else v) }

/-- The depth of a segment in a search (R69): 255 where no path reaches it or the count exceeds 254. -/
def depthIn (definite : List (SegId × Nat)) (i : SegId) : Nat :=
  match definite.find? (fun x => x.1 == i) with
  | none => 255
  | some x => if x.2 ≤ 254 then x.2 else 255

/-! ## The engine -/

/-- The tracer changed. -/
def Ev.modTracer (e : Ev) (f : Tracer → Tracer) : Ev := { e with tracer := f e.tracer }

/-- A published pass starts with a new snapshot (R63). -/
def Ev.startPublished (e : Ev) : Ev :=
  e.modTracer (fun t => { t with engine := .publishing e.snapshot, rerun := false })

/-- The waiting hypothetical pass starts with its snapshot (R67, R68). -/
def Ev.startHypothetical (e : Ev) (overrides : List ValveId) : Ev :=
  e.modTracer (fun t => { t with engine := .hypothetical e.snapshot overrides, waiting := none })

/-- The engine takes the work that waits (R67): the kind other than the one last completed first. -/
def Ev.nextWork (e : Ev) : Ev :=
  match e.tracer.rerun, e.tracer.waiting with
  | true, none => e.startPublished
  | false, some ov => e.startHypothetical ov
  | true, some ov => match e.tracer.lastKind with
    | .hypothetical => e.startPublished
    | .published => e.startHypothetical ov
  | false, none => e.modTracer (fun t => { t with engine := .idle })

/-- The effect of this event on the tracer, at its end (R63, R67, R68). A pass completed in this event frees the
engine, and a trigger of the same event then waits as the rerun mark. In an event that brings an IDLE engine both a
trigger and a hypothetical request, the published pass starts and the request waits. -/
def Ev.settleTracer (e : Ev) : Ev :=
  match e.completed with
  | some kind =>
    (e.modTracer (fun t => { t with lastKind := kind, rerun := t.rerun || e.trigger })).nextWork
  | none =>
    match e.tracer.engine with
    | .idle =>
      if e.trigger then e.startPublished
      else match e.wake, e.tracer.waiting with
        | true, some ov => e.startHypothetical ov
        | _, _ => e
    | _ => if e.trigger then e.modTracer (fun t => { t with rerun := true }) else e

end Sys2Proof.Machine
end

