-- ==== Sys2Proof/Machine/Plans.lean ====
section
/-! DEFINITION. Moves of a plan between its states that several blocks make: the alarms and deliveries that follow a
change of state (R109, R137, R49), the planning queue (R93, R104), and replanning (R105, R106). -/

namespace Sys2Proof.Machine

/-- The alarm that stands while a plan is in a state, with its priority (R109, R137). A plan never committed raises none
for INFEASIBLE. -/
def stateAlarm (p : Plan) (st : PlanState) : Option (AlarmKind × Nat) :=
  match st with
  | .infeasible => if p.committed then some (.planInfeasible, 1) else none
  | .letBy => some (.isolationLetBy, 1)
  | .unproven => some (.isolationUnproven, 2)
  | _ => none

/-- A plan's entry to a state: `confirmed by` is cleared on entry to PROVING or EXECUTING (R138). -/
def Plan.enter (p : Plan) (st : PlanState) : Plan :=
  { p with
    state := st
    confirmedBy := if p.state ≠ st ∧ (st = .proving ∨ st = .executing) then none else p.confirmedBy }

/-- A change of a plan's state, with the alarm of the state left cleared, that of the state entered raised (R109, R137),
and the Poll Scheduler told of a plan entering or leaving PROVING (R49). -/
def Ev.setPlanState (e : Ev) (n : Nat) (st : PlanState) : Ev :=
  match e.plan? n with
  | none => e
  | some p =>
    if p.state = st then e
    else
      let e1 := (e.modPlan n (fun q => q.enter st)).markSettle
      let e2 := match stateAlarm p p.state with
        | none => e1
        | some a => e1.clear a.1 n
      let e3 := match stateAlarm p st with
        | none => e2
        | some a => e2.raise a.1 n a.2 (e2.zoneOfIncident p.incident)
      if p.state = .proving ∨ st = .proving then e3.markTiers else e3

/-- A plan's authorisations are cleared and its window deadline cancelled. -/
def Ev.clearAuthorisations (e : Ev) (n : Nat) : Ev :=
  e.modPlan n (fun p => { p with authorisations := [], window := none })

/-- A plan appended to the planning queue, at most once (R93). -/
def Ev.enqueuePlan (e : Ev) (n : Nat) : Ev :=
  { e.modPlanner (fun pl => { pl with queue := if pl.queue.contains n then pl.queue else pl.queue ++ [n] }) with
    wake := true }

/-- The engine is RUNNING for a plan (R93). -/
def PlanEngine.runsFor (g : PlanEngine) (n : Nat) : Bool :=
  match g with
  | .running r => r.plan == n
  | _ => false

/-- A plan gives up its place in the planning queue and the engine (R104, step 1). -/
def Ev.leaveQueue (e : Ev) (n : Nat) : Ev :=
  e.modPlanner (fun pl => { pl with
    queue := pl.queue.filter (fun k => k != n)
    engine := if pl.engine.runsFor n then .draining else pl.engine })

/-- The QUEUED orders of a plan that meet a test are withdrawn: their records become FREE (R111, R115). -/
def Ev.withdrawQueued (e : Ev) (n : Nat) (test : Order → Bool) : Ev :=
  e.modOrders (fun o => o.plan == n && o.state == .queued && test o) (fun _ => none)

/-- The proof fields as they stand when a plan no longer awaits its proof: no deadline, no awaited publication, no
re-close waiting for a record (R106, R132, R140). -/
def Plan.dropProof (p : Plan) : Plan :=
  { p with proofDeadline := none, awaiting := false, awaitedGeneration := none, recloseWaiting := [] }

/-- Entry to REPLANNING (R106). -/
def Ev.enterReplanning (e : Ev) (n : Nat) : Ev :=
  let e1 := ((e.withdrawQueued n (fun _ => true)).modPlan n Plan.dropProof).clearAuthorisations n
  ((e1.setPlanState n .replanning).enqueuePlan n).planNotice n .replanning

/-- A plan's rerun mark is set (R98). -/
def Ev.markRerun (e : Ev) (n : Nat) : Ev := e.modPlan n (fun p => { p with rerun := true })

/-- A replanning trigger of a committed plan, by the plan's state (R106). -/
def Ev.replanTrigger (e : Ev) (n : Nat) : Ev :=
  match e.plan? n with
  | none => e
  | some p =>
    match p.committed, p.state with
    | true, .executing | true, .proving | true, .proven | true, .letBy | true, .unproven => e.enterReplanning n
    | true, .proposed | true, .authorising => e.enterReplanning n
    | true, .replanning => if e.planner.engine.runsFor n then e.markRerun n else e
    | _, _ => e

/-- A return to COMPUTING: authorisations cleared, window cancelled, appended to the queue (R100, R105). -/
def Ev.backToComputing (e : Ev) (n : Nat) : Ev :=
  (((e.clearAuthorisations n).setPlanState n .computing).enqueuePlan n).planNotice n .stale

/-- A target change of the incident a plan is held for (R105, R106). -/
def Ev.targetChange (e : Ev) (n : Nat) : Ev :=
  match e.plan? n with
  | none => e
  | some p =>
    if p.committed then e.replanTrigger n
    else match p.state with
      | .computing => if e.planner.engine.runsFor n then e.markRerun n else e
      | .proposed | .authorising | .infeasible => e.backToComputing n
      | _ => e

/-- A plan leaves the plan table, and the mark of its number in its incident becomes RESTORED or CANCELLED (R84, R104,
R144). -/
def Ev.markIncidentPlan (e : Ev) (incident n : Nat) (mark : PlanMark) : Ev :=
  match e.incident? incident with
  | none => e
  | some i =>
    if i.plan = some (n, mark) then e
    else (e.modIncident incident (fun x => { x with plan := some (n, mark) })).logIncident incident .plan

/-- An incident moves to a state, with its notice (R84). -/
def Ev.setIncidentState (e : Ev) (n : Nat) (st : IncidentState) : Ev :=
  match e.incident? n with
  | none => e
  | some i =>
    if i.state = st then e else (e.modIncident n (fun x => { x with state := st })).logIncident n .state

/-- A plan's slot becomes FREE. -/
def Ev.freePlan (e : Ev) (n : Nat) : Ev :=
  e.modPlanner (fun pl => { pl with plans := pl.plans.filter (fun p => p.number != n) })

end Sys2Proof.Machine
end

