-- ==== Sys2Proof/Machine/Valves.lean ====
section
/-! DEFINITION. The live state of valves and the end of orders: positions, faults, claims and shared holds (R8 to R12,
R126), done lists (R113), and the failure of an order (R121). -/

namespace Sys2Proof.Machine

/-- One valve's live state changed. -/
def Ev.modValve (e : Ev) (v : ValveId) (f : ValveLive → ValveLive) : Ev :=
  { e with valveLive := upd e.valveLive v f }

/-- A position written (R8, R12, R62). Writing the position held is no change. A valve that becomes CLOSED clears its
VALVE_HELD_MOVED alarm (R125). -/
def Ev.writePosition (e : Ev) (v : ValveId) (pos : Position) : Ev :=
  if e.valveLive[v].position = pos then e
  else
    let e1 := ((e.modValve v (fun l => { l with position := pos, lastChange := e.now })).bump.triggerPass).markSettle
    if pos = .closed then e1.clear .valveHeldMoved v.val else e1

/-- The VALVE_FAULT alarm follows a change of fault: raised, re-raised or cleared (R126). -/
def Ev.faultAlarm (e : Ev) (v : ValveId) (f : ValveFault) : Ev :=
  if f = .noFault then e.clear .valveFault v.val
  else e.raise .valveFault v.val 2 (valvePlace e.table v)

/-- A fault written to the live state, with its alarm and the revision (R12, R126). Writing the fault held is no
change. -/
def Ev.setFault (e : Ev) (v : ValveId) (f : ValveFault) : Ev :=
  if e.valveLive[v].fault = f then e
  else ((e.modValve v (fun l => { l with fault := f, lastChange := e.now })).bump.markSettle).faultAlarm v f

/-- An order made final: its deadline is cancelled and its end stamp set (R118). -/
def Order.finalise (o : Order) (st : OrderState) (now : Stamp) : Order :=
  { o with state := st, deadline := none, endStamp := some now }

/-- The non-final order of a tag on a path made final. -/
def Ev.finaliseOrder (e : Ev) (o : Order) (st : OrderState) : Ev :=
  e.modOrders (fun x => x.tag == o.tag && x.state.nonFinal) (fun x => some (x.finalise st e.now))

/-- The progress of a done-list entry set (R131). -/
def Ev.setProgress (e : Ev) (n : Nat) (v : ValveId) (pr : Progress) : Ev :=
  (e.modPlan n (fun p => { p with
    done := p.done.map (fun d => if d.valve == v then { d with progress := pr } else d) })).markSettle

/-- A valve that failed to reopen: its entry is incomplete and it joins the incomplete list, which a notice shows by the end of
the event (R99, R121, R141). -/
def Ev.markIncomplete (e : Ev) (n : Nat) (v : ValveId) : Ev :=
  ((e.setProgress n v .incomplete).modPlan n (fun p => { p with incomplete := p.incomplete ++ [v] })).toAnnounce n

/-- The failure of an order handed on: a failed CLOSE is a replanning trigger, a failed OPEN goes to restoration
(R121). -/
def Ev.handFailure (e : Ev) (o : Order) : Ev :=
  match o.action with
  | .closeValve => e.replanTrigger o.plan
  | .openValve => e.markIncomplete o.plan o.valve

/-- A QUEUED order whose valve has taken a fault becomes FAILED, and the failure is handed on (R126). A re-close that still
waits for a record is no QUEUED order and waits on (notes/assumptions/54.md). -/
def Ev.failQueued (e : Ev) (v : ValveId) : Ev :=
  match e.order? (fun o => o.valve == v && o.state == .queued) with
  | none => e
  | some o => (e.finaliseOrder o .failed).handFailure o

/-- A fault written by an event that ends no order: a QUEUED order of the valve fails with it (R126). -/
def Ev.writeFault (e : Ev) (v : ValveId) (f : ValveFault) : Ev :=
  if e.valveLive[v].fault = f then e
  else if f = .noFault then e.setFault v f
  else (e.setFault v f).failQueued v

/-- An order fails with a fault, and with a position where the event reports one (R118, R119, R121). -/
def Ev.failOrder (e : Ev) (o : Order) (st : OrderState) (f : ValveFault) (pos : Option Position) : Ev :=
  let e1 := e.finaliseOrder o st
  let e2 := match pos with
    | none => e1
    | some p => e1.writePosition o.valve p
  (e2.setFault o.valve f).handFailure o

/-- A valve enters the end of a plan's done list, unless it is on it already; the entry is announced (R113). -/
def Ev.enterDone (e : Ev) (n : Nat) (v : ValveId) : Ev :=
  match e.plan? n with
  | none => e
  | some p =>
    if p.done.any (fun d => d.valve == v) then e
    else ((e.modPlan n (fun q => { q with done := q.done ++ [⟨v, .notDealt⟩] })).markSettle).planNotice n .closure

/-- An order DONE: the position is written and the order handed to its plan. A re-close changes no list (R118, R125). -/
def Ev.completeOrder (e : Ev) (o : Order) (pos : Position) : Ev :=
  let e1 := (e.finaliseOrder o .done).writePosition o.valve pos
  match o.action with
  | .closeValve => if o.reclose then e1 else e1.enterDone o.plan o.valve
  | .openValve => e1.setProgress o.plan o.valve .reopened

/-! ## Claims and shared holds (R9, R10) -/

/-- The claim of a valve set: a change clears the re-close used mark (R9) and moves the revision (R12). -/
def Ev.setClaim (e : Ev) (v : ValveId) (c : Option Nat) : Ev :=
  if e.valveLive[v].claim = c then e
  else ((e.modValve v (fun l => { l with claim := c, recloseUsed := false })).bump).markSettle

/-- The shared holds of a valve set (R12). -/
def Ev.setHolds (e : Ev) (v : ValveId) (hs : List Nat) : Ev :=
  if e.valveLive[v].holds = hs then e else ((e.modValve v (fun l => { l with holds := hs })).bump).markSettle

/-- A plan added at the end of a valve's shared holds, unless it is there (R10, R103). -/
def Ev.addHold (e : Ev) (n : Nat) (v : ValveId) : Ev :=
  if e.valveLive[v].holds.contains n then e else e.setHolds v (e.valveLive[v].holds ++ [n])

/-- A plan removed from a valve's shared holds (R10). -/
def Ev.dropHold (e : Ev) (n : Nat) (v : ValveId) : Ev := e.setHolds v (e.valveLive[v].holds.filter (fun k => k != n))

/-- A claim taken by a plan, which leaves the shared holds of the valve (R10, R103). -/
def Ev.takeClaim (e : Ev) (n : Nat) (v : ValveId) : Ev := (e.setClaim v (some n)).dropHold n v

/-- A claim released: VALVE_HELD_MOVED is cleared where it stands; position and fault are left (R144). -/
def Ev.releaseClaim (e : Ev) (v : ValveId) : Ev := (e.setClaim v none).clear .valveHeldMoved v.val

/-- The receiving plan's lists after a claim has passed to it (R142, step 2). -/
def Plan.receive (p : Plan) (v : ValveId) (closedByGiver : Bool) : Plan :=
  let p1 := { p with shared := p.shared.filter (fun x => x != v) }
  if closedByGiver then
    if p1.done.any (fun d => d.valve == v) then p1 else { p1 with done := p1.done ++ [⟨v, .notDealt⟩] }
  else { p1 with holding := sortIds (dedup [] (p1.holding ++ [v])) }

/-- A claim passes from one plan to the first plan of the valve's shared holds (R142). -/
def Ev.passClaim (e : Ev) (giver receiver : Nat) (v : ValveId) : Ev :=
  let closedByGiver := match e.plan? giver with
    | none => false
    | some p => p.done.any (fun d => d.valve == v)
  let e1 := ((e.setClaim v (some receiver)).dropHold receiver v).clear .valveHeldMoved v.val
  ((e1.modPlan receiver (fun p => p.receive v closedByGiver)).markSettle).planNotice receiver .transfer

/-- The valves a plan claims, in valve-number order (R90). -/
def Ev.claimedBy (e : Ev) (n : Nat) : List ValveId := idsWhere e.valveLive (fun l => l.claim == some n)

/-- The valves whose shared holds name a plan, in valve-number order (R10). -/
def Ev.heldBy (e : Ev) (n : Nat) : List ValveId := idsWhere e.valveLive (fun l => l.holds.contains n)

end Sys2Proof.Machine
end

