-- ==== Sys2Proof/Machine/Restoration.lean ====
section
/-! DEFINITION. Restoration: the turns of a RESTORING plan, the passing of claims and the end (R140 to R144). -/

namespace Sys2Proof.Machine

/-- The plan has an OPEN order that is not final (R141). -/
def Ev.hasOpenOrder (e : Ev) (n : Nat) : Bool :=
  (e.order? (fun o => o.plan == n && o.action == .openValve && o.state.nonFinal)).isSome

/-- The plan has an order that is not final (R143). -/
def Ev.hasLiveOrder (e : Ev) (n : Nat) : Bool := (e.order? (fun o => o.plan == n && o.state.nonFinal)).isSome

/-- The valve of a plan's turn: the latest done-list entry not dealt with (R141). -/
def Plan.turnValve (p : Plan) : Option ValveId :=
  (p.done.reverse.find? (fun d => d.progress == .notDealt)).map (fun d => d.valve)

/-- The valve a turn is to be taken for: the plan is RESTORING, no OPEN order of it is non-final, and some entry is not
dealt with (R141). -/
def Ev.turn (e : Ev) (n : Nat) : Option ValveId :=
  match e.plan? n with
  | none => none
  | some p => if p.state = .restoring ∧ e.hasOpenOrder n = false then p.turnValve else none

/-- The first line of the table of R141 that applies to a valve at its turn. -/
inductive TurnLine where
  | waits
  | passOn (receiver : Nat)
  | faulty
  | alreadyOpen
  | order
deriving DecidableEq, Repr

/-- The plan that receives a valve which plan `n` gives up: the first of its shared holds (R142). Plan `n` itself is passed over
where it stands among them (notes/assumptions/64.md). -/
def Ev.receiver (e : Ev) (n : Nat) (v : ValveId) : Option Nat := (e.valveLive[v].holds.filter (fun k => k != n)).head?

/-- The judgement of R141 on a valve at the turn of plan `n`. -/
def Ev.turnLine (e : Ev) (n : Nat) (v : ValveId) : TurnLine :=
  if (e.valveOrder? v).isSome then .waits
  else match e.receiver n v with
    | some m => .passOn m
    | none =>
      if e.valveLive[v].fault ≠ .noFault then .faulty
      else if e.valveLive[v].position = .opened then .alreadyOpen
      else .order

/-- The turns of a plan, until one waits or asks for an OPEN order (R141). The fuel is the number of entries left. -/
def Ev.takeTurns (n : Nat) : Nat → Ev → Ev
  | 0, e => e
  | k + 1, e =>
    match e.turn n with
    | none => e
    | some v =>
      match e.turnLine n v with
      | .waits => e
      | .passOn m => Ev.takeTurns n k ((e.setProgress n v .passedOn).passClaim n m v)
      | .faulty => Ev.takeTurns n k (e.markIncomplete n v)
      | .alreadyOpen => Ev.takeTurns n k (e.setProgress n v .reopened)
      | .order => e

/-- A RESTORING plan has reached its end: every entry is dealt with and no order of it is non-final (R143). -/
def Ev.restorationOver (e : Ev) (p : Plan) : Bool :=
  p.state == .restoring && p.done.all (fun d => d.progress != .notDealt) && !e.hasLiveOrder p.number

/-- A valve given up at a plan's end: passed to the first plan of its holds, or released (R144, step 1). -/
def Ev.giveUp (e : Ev) (n : Nat) (v : ValveId) : Ev :=
  match e.receiver n v with
  | some m => e.passClaim n m v
  | none => e.releaseClaim v

/-- The committed mark ends with the plan, and the frozen mark, which only a committed plan has, with it (R90, R144;
notes/assumptions/57.md). -/
def Plan.ended (p : Plan) : Plan := { p with committed := false, frozen := false }

/-- The end of a restoration (R144). The claims are given up in valve-number order (notes/assumptions/55.md). -/
def Ev.endPlan (e : Ev) (p : Plan) : Ev :=
  let n := p.number
  let e1 := (e.claimedBy n).foldl (fun acc v => acc.giveUp n v) e
  let e2 := (e1.heldBy n).foldl (fun acc v => acc.dropHold n v) e1
  let e3 := (((e2.setPlanState n .restored).modPlan n Plan.ended).triggerPass).markIncidentPlan p.incident n .restored
  (e3.planNotice n .restored).freePlan n

/-- The turns of a plan, and its end if it has come to it. -/
def Ev.restoreOne (e : Ev) (n : Nat) : Ev :=
  match e.plan? n with
  | none => e
  | some p0 =>
    let e1 := Ev.takeTurns n (p0.done.length + 1) e
    match e1.plan? n with
    | none => e1
    | some p => if e1.restorationOver p then e1.endPlan p else e1

/-- The turns of every RESTORING plan (R141), in authorisation order (the model's choice, notes/assumptions/62.md). A claim passed
on may give another plan a turn, so the round is taken once for each slot of the plan table. -/
def Ev.restoreRound (e : Ev) : Ev :=
  (e.plansInOrder.map (fun p => p.number)).foldl (fun acc n => acc.restoreOne n) e

/-- `k` rounds. -/
def Ev.restoreRounds : Nat → Ev → Ev
  | 0, e => e
  | k + 1, e => Ev.restoreRounds k e.restoreRound

/-- Every turn that can be taken now. -/
def Ev.restoreAll (e : Ev) : Ev := Ev.restoreRounds Config.planSlots e

/-- The incident of a plan that enters RESTORING: from ISOLATING or MADE_SAFE it becomes RESTORING (R84). -/
def Ev.incidentRestores (e : Ev) (n : Nat) : Ev :=
  match e.incident? n with
  | none => e
  | some i => if i.state = .isolating ∨ i.state = .madeSafe then e.setIncidentState n .restoring else e

/-- Entry to RESTORING (R140). A plan that ends at step 6 is noticed as it stood on entry. -/
def Ev.enterRestoring (e : Ev) (p : Plan) : Ev :=
  let n := p.number
  let e1 := ((e.modPlan n Plan.dropProof).clearAuthorisations n).leaveQueue n
  let e2 := e1.modPlan n (fun q => { q with widen := none, rerun := false })
  let e3 := e2.withdrawQueued n (fun o => o.action == .closeValve)
  let e4 := (e3.setPlanState n .restoring).incidentRestores p.incident
  match e4.plan? n with
  | none => e4
  | some entered =>
    let e5 := e4.restoreAll
    e5.planNoticeOf ((e5.plan? n).getD entered) .restoring

end Sys2Proof.Machine
end

