-- ==== Sys2Proof/Machine/Planner.lean ====
section
/-! DEFINITION. The planning engine: the growth of a region (R94, R95), collateral and ranks (R96, R97), the end of a run
(R98), and what becomes of its result (R99, R109). -/

namespace Sys2Proof.Machine

/-! ## The growth of a region -/

/-- The class of a boundary valve (R94). -/
inductive ValveClass where
  | unusable | shared | close | holding
deriving DecidableEq, Repr

/-- The class of a boundary valve for a plan: the first row of the table of R94 that applies. -/
def Ev.classify (e : Ev) (p : Plan) (outer : Side) (v : ValveId) : ValveClass :=
  let l := e.valveLive[v]
  let others := l.claim.isSome && l.claim != some p.number
  let room := decide (l.holds.length < Config.sharedHolds) || l.holds.contains p.number
  if (p.widen.getD []).contains v then .unusable
  else if l.fault ≠ .noFault then .unusable
  else if others then (if l.position = .closed ∧ room then .shared else .unusable)
  else match l.position with
    | .unknown | .moving => .unusable
    | .closed => if p.done.any (fun d => d.valve == v) then .close else .holding
    | .opened => if e.table.valves[v].noClose || outer.isFeed then .unusable else .close

/-- A boundary valve with its outer side and class (R94, R95). -/
structure Boundary where
  valve : ValveId
  outer : Side
  cls : ValveClass
deriving DecidableEq, Repr

/-- The boundary of a region: every present valve with exactly one side in it, classed (R95, step 1). -/
def Ev.boundary (e : Ev) (p : Plan) (segs : List SegId) : List Boundary :=
  (idsWhere e.table.valves (fun v => v.present)).filterMap (fun v =>
    let a := e.table.valves[v].sideA
    let b := e.table.valves[v].sideB
    match sideIn segs a, sideIn segs b with
    | true, false => some ⟨v, b, e.classify p b v⟩
    | false, true => some ⟨v, a, e.classify p a v⟩
    | _, _ => none)

/-- The valves of a boundary in one class, in valve-number order. -/
def classValves (bs : List Boundary) (c : ValveClass) : List ValveId :=
  (bs.filter (fun b => b.cls == c)).map (fun b => b.valve)

/-- Where the growth ended: the region and lists reached, and the reason if it ended INFEASIBLE (R95, R99). -/
structure Growth where
  region : List RegionSeg
  ringsUsed : Nat
  close : List ValveId
  holding : List ValveId
  shared : List ValveId
  reason : InfeasibleReason
deriving DecidableEq, Repr

/-- The growth that stops at a boundary with a reason. -/
def stopGrowth (region : List RegionSeg) (rings : Nat) (bs : List Boundary) (reason : InfeasibleReason) : Growth :=
  ⟨region, rings, classValves bs .close, classValves bs .holding, classValves bs .shared, reason⟩

/-- The count of valves at the end of step 3 (R95): the lists, and the done valves not among them. -/
def listValves (p : Plan) (g : Growth) : Nat :=
  (dedup [] (g.close ++ g.holding ++ g.shared ++ p.done.map (fun d => d.valve))).length

/-- The outer segments of the unusable boundary valves, without repeats, in segment-number order. -/
def ringSegs (bs : List Boundary) : List SegId :=
  sortIds (dedup [] ((bs.filter (fun b => b.cls == .unusable)).filterMap (fun b =>
    match b.outer with
    | .seg i => some i
    | .feed _ => none)))

/-- The rings of R95. `left` counts the rings still allowed. A ring that would take the region past 32 segments stops the
growth with the region as it stood before that ring. -/
def Ev.growRings (e : Ev) (p : Plan) : Nat → List RegionSeg → Nat → Growth
  | left, region, rings =>
    let bs := e.boundary p (region.map (fun r => r.seg))
    if bs.any (fun b => b.cls == .unusable && b.outer.isFeed) then stopGrowth region rings bs .feedBoundary
    else if bs.all (fun b => b.cls != .unusable) then
      let g := stopGrowth region rings bs .none
      if listValves p g > Config.planValves then { g with reason := .valves } else g
    else match left with
      | 0 => stopGrowth region rings bs .rings
      | k + 1 =>
        let region' := region ++ (ringSegs bs).map (fun s => ⟨s, rings + 1⟩)
        if region'.length > Config.regionSegments then stopGrowth region rings bs .region
        else e.growRings p k region' (rings + 1)

/-- The region grown from a target (R95). -/
def Ev.grow (e : Ev) (p : Plan) (target : List SegId) : Growth :=
  e.growRings p Config.planRings ((sortIds target).map (fun s => ⟨s, 0⟩)) 0

/-! ## Results -/

/-- What a computation found: the lists of a plan, ranked and counted, or the reason it is INFEASIBLE (R96 to R99). -/
structure PlanResult where
  basis : Word
  region : List RegionSeg
  ringsUsed : Nat
  close : List CloseEntry
  holding : List ValveId
  shared : List ValveId
  collateral : List SegId
  customers : Nat
  reason : InfeasibleReason
deriving DecidableEq, Repr

/-- The customers of some segments (R96). -/
def customersOf (t : Table) (segs : List SegId) : Nat := (segs.map (fun s => t.segs[s].customers)).foldl (· + ·) 0

/-- The collateral list (R96). -/
def Ev.collateral (e : Ev) (p : Plan) (region : List SegId) (possible : List (SegId × Nat)) : List SegId :=
  (idsWhere e.table.segs (fun s => s.present)).filter (fun i =>
    !region.contains i && !reached? possible i &&
      (e.segLive[i].supply == .live || e.segLive[i].supply == .uncertain || p.collateral.contains i ||
        p.segs.contains i))

/-- The depth of a side in a hypothetical result; a feed point has none. -/
def sideDepth (definite : List (SegId × Nat)) : Side → Nat
  | .seg i => depthIn definite i
  | .feed _ => 255

/-- The rank of a close valve: the smaller of the depths of its sides (R97). -/
def rankOf (t : Table) (definite : List (SegId × Nat)) (v : ValveId) : Nat :=
  min (sideDepth definite t.valves[v].sideA) (sideDepth definite t.valves[v].sideB)

/-- The close list ranked and sorted by rank, then valve number (R97). -/
def rankClose (t : Table) (definite : List (SegId × Nat)) (vs : List ValveId) : List CloseEntry :=
  sortBy (fun a b => decide (a.rank < b.rank) || (a.rank == b.rank && decide (a.valve.val < b.valve.val)))
    (vs.map (fun v => ⟨v, rankOf t definite v⟩))

/-- The result of a run whose hypothetical pass has been delivered (R96, R97). -/
def Ev.runResult (e : Ev) (p : Plan) (r : Run) (snap : Snapshot) : PlanResult :=
  let region := r.region.map (fun x => x.seg)
  let definite := snap.definite
  let collateral := e.collateral p region snap.possible
  { basis := r.basis, region := r.region, ringsUsed := r.ringsUsed, close := rankClose e.table definite r.close,
    holding := r.holding, shared := r.shared, collateral := collateral,
    customers := customersOf e.table (region ++ collateral), reason := .none }

/-- The result of a run found INFEASIBLE at its start: no collateral, no customers, and a close list never ranked (R99). That list
stands in valve-number order (the model's choice, notes/assumptions/21.md). -/
def infeasibleResult (basis : Word) (g : Growth) : PlanResult :=
  { basis := basis, region := g.region, ringsUsed := g.ringsUsed,
    close := g.close.map (fun v => ⟨v, (Config.unrankedRank v.val).toNat⟩), holding := g.holding, shared := g.shared,
    collateral := [], customers := 0, reason := g.reason }

/-- The lists of a result written into a plan (R99, R109). -/
def Plan.takeLists (p : Plan) (r : PlanResult) : Plan :=
  { p with
    basis := r.basis, region := r.region, ringsUsed := r.ringsUsed, close := r.close, holding := r.holding
    shared := r.shared, collateral := r.collateral, customers := r.customers, reason := r.reason }

/-- The end of a computation for a plan never committed (R99). -/
def Ev.resultFresh (e : Ev) (n : Nat) (r : PlanResult) : Ev :=
  let st : PlanState := if r.reason = .none then .proposed else .infeasible
  let c : PlanCause := if r.reason = .none then .proposed else .infeasible
  ((e.modPlan n (fun p => p.takeLists r)).setPlanState n st).planNotice n c

/-- A committed plan whose recomputation is INFEASIBLE keeps its lists in force (R109, third row), and with them the revision
they were computed on (R90; DEDUCED, notes/assumptions/58.md). -/
def Ev.resultInfeasible (e : Ev) (n : Nat) (reason : InfeasibleReason) : Ev :=
  ((e.modPlan n (fun p => { p with reason := reason })).setPlanState n .infeasible).planNotice n .infeasible

/-- The shared holds follow a shared list that is replaced (R10, R109). -/
def Ev.adjustHolds (e : Ev) (n : Nat) (old new : List ValveId) : Ev :=
  let e1 := (old.filter (fun v => !new.contains v)).foldl (fun acc v => acc.dropHold n v) e
  new.foldl (fun acc v => acc.addHold n v) e1

/-- A valve that joins a shared list finds its shared holds full (R109). -/
def Ev.holdsFull (e : Ev) (n : Nat) (new : List ValveId) : Bool :=
  new.any (fun v => !e.valveLive[v].holds.contains n && decide (Config.sharedHolds ≤ e.valveLive[v].holds.length))

/-- Claims taken on the close and holding lists of a plan (R103, step 2). -/
def Ev.claimLists (e : Ev) (n : Nat) (p : Plan) : Ev :=
  (p.close.map (fun c => c.valve) ++ p.holding).foldl (fun acc v => acc.takeClaim n v) e

/-- Steps 2 to 8 of a completing authorisation (R103): claims, shared holds, the committed mark with its sequence, the
authorised customers and EXECUTING. The orders are queued at the end of the event. -/
def Ev.commitPlan (e : Ev) (n : Nat) : Ev :=
  match e.plan? n with
  | none => e
  | some p =>
    let e1 := e.claimLists n p
    let e2 := p.shared.foldl (fun acc v => acc.addHold n v) e1
    let e3 := if p.committed then e2 else
      let seq := nextSkipZero e2.planner.authCount
      ((e2.modPlanner (fun pl => { pl with authCount := seq })).modPlan n (fun q =>
        { q with committed := true, authSequence := seq })).triggerPass
    let e4 := (e3.modPlan n (fun q => { q with authCustomers := some q.customers })).setPlanState n .executing
    match e4.incident? p.incident with
    | none => e4
    | some i => if i.state = .opened then e4.setIncidentState p.incident .isolating else e4

/-- The result of a replanning computation that found a region (R109, first and second rows). The model's choices: a plan joins
the shared holds of every valve that joins its list, be it a claim of its own (notes/assumptions/64.md), and the first row
sends RECOMPUTED alone (notes/assumptions/65.md). -/
def Ev.resultReplanned (e : Ev) (p : Plan) (r : PlanResult) : Ev :=
  let n := p.number
  let atBasis := e.revision == r.basis
  let straight := (e.gradeOfIncident p.incident == 1 || decide (r.customers ≤ p.authCustomers.getD 0)) && atBasis
  let e1 := ((e.modPlan n (fun q => q.takeLists r)).adjustHolds n p.shared r.shared).triggerPass
  let e2 := if straight then e1.commitPlan n else e1.setPlanState n .proposed
  let e3 := if atBasis then e2.modPlan n (fun q => { q with basis := e2.revision }) else e2
  e3.planNotice n (if straight then .recomputed else .proposed)

/-- The result of a computation that stands, by the plan's committed mark (R99, R109). The widen set becomes none when
the computation ends (R107). -/
def Ev.resultStands (e : Ev) (p : Plan) (r : PlanResult) : Ev :=
  let e1 := e.modPlan p.number (fun q => { q with widen := none })
  if !p.committed then e1.resultFresh p.number r
  else if r.reason ≠ .none then e1.resultInfeasible p.number r.reason
  else if e1.holdsFull p.number r.shared then e1.resultInfeasible p.number .valves
  else e1.resultReplanned p r

/-! ## Runs -/

/-- The engine's state set (R93). -/
def Ev.setEngine (e : Ev) (g : PlanEngine) : Ev :=
  { e.modPlanner (fun pl => { pl with engine := g }) with wake := true }

/-- The incident's segment list as it now stands (R94, step 2). -/
def Ev.targetOf (e : Ev) (p : Plan) : List SegId :=
  match e.incident? p.incident with
  | none => p.target
  | some i => i.segments

/-- A run starts for a plan (R94). A run found INFEASIBLE ends at once and its result stands: the revision cannot have
moved, and a rerun in the same event would read the same network (R98). -/
def Ev.startRun (e : Ev) (n count : Nat) : Ev :=
  match e.plan? n with
  | none => e.setEngine .idle
  | some p =>
    let target := e.targetOf p
    let e1 := e.modPlan n (fun q => { q with target := target, rerun := false })
    let g := e1.grow p target
    if g.reason = .none then
      (e1.setEngine (.running ⟨n, count, e.revision, g.region, g.ringsUsed, g.close, g.holding, g.shared⟩)).modTracer
        (fun t => { t with waiting := some g.close })
    else (e1.setEngine .idle).resultStands p (infeasibleResult e.revision g)

/-- The engine, when IDLE, takes the head of the queue, again and again while runs end at once (R93). -/
def Ev.feedEngine : Nat → Ev → Ev
  | 0, e => e
  | k + 1, e =>
    match e.planner.engine, e.planner.queue with
    | .idle, n :: rest =>
      Ev.feedEngine k ((e.modPlanner (fun pl => { pl with queue := rest })).startRun n 1)
    | _, _ => e

/-- The end of a run at its hypothetical result (R96, R98). -/
def Ev.endRun (e : Ev) (r : Run) (snap : Snapshot) : Ev :=
  match e.plan? r.plan with
  | none => e.setEngine .idle
  | some p =>
    if p.rerun then e.startRun r.plan 1
    else if e.revision ≠ r.basis ∧ r.count < 3 then e.startRun r.plan (r.count + 1)
    else (e.setEngine .idle).resultStands p (e.runResult p r snap)

/-- A hypothetical result delivered to the planning engine (R68, R96, R104). -/
def Ev.deliverResult (e : Ev) (snap : Snapshot) : Ev :=
  match e.planner.engine with
  | .running r => e.endRun r snap
  | .draining => e.setEngine .idle
  | .idle => e

end Sys2Proof.Machine
end

