-- ==== Sys2Proof/Machine/Orders.lean ====
section
/-! DEFINITION. The queueing and issue of orders (R111 to R117), closures complete (R132), and the frames that wait for a
free queue entry (R54, R127, R176). -/

namespace Sys2Proof.Machine

/-! ## Queueing -/

/-- An order that is wanted: for a plan, a valve and an action (R113, R125, R141). -/
structure Want where
  plan : Nat
  valve : ValveId
  action : OrderAction
  rank : Nat
  reclose : Bool
deriving DecidableEq, Repr

/-- The rank of a valve on a close list. -/
def Plan.rankOn (p : Plan) (v : ValveId) : Option Nat := (p.close.find? (fun c => c.valve == v)).map (fun c => c.rank)

/-- The valves of a close list that are not on the done list. -/
def Plan.unfinished (p : Plan) : List CloseEntry := p.close.filter (fun c => !p.done.any (fun d => d.valve == c.valve))

/-- The lowest unfinished rank (R113). -/
def Plan.lowestRank (p : Plan) : Option Nat := (p.unfinished.map (fun c => c.rank)).min?

/-- The close orders a plan in EXECUTING wants: its waiting re-closes, then the due valves of the lowest unfinished rank,
each in valve-number order (R113, R115). -/
def Ev.closeWants (e : Ev) (p : Plan) : List Want :=
  let free (v : ValveId) : Bool := (e.valveOrder? v).isNone
  let recloses := ((sortIds p.recloseWaiting).filter free).map (fun v =>
    (⟨p.number, v, .closeValve, (p.rankOn v).getD 1, true⟩ : Want))
  match p.lowestRank with
  | none => recloses
  | some r =>
    recloses ++ ((sortIds ((p.unfinished.filter (fun c => c.rank == r)).map (fun c => c.valve))).filter free).map
      (fun v => ⟨p.number, v, .closeValve, r, false⟩)

/-- The OPEN order a plan in RESTORING wants (R141, line 5). -/
def Ev.openWants (e : Ev) (p : Plan) : List Want :=
  match e.turn p.number with
  | none => []
  | some v => match e.turnLine p.number v with
    | .order => [⟨p.number, v, .openValve, (p.rankOn v).getD 255, false⟩]
    | _ => []

/-- The orders wanted, in the order they are given records: plans in authorisation order (R115). -/
def Ev.wants (e : Ev) : List Want :=
  e.plansInOrder.flatMap (fun p =>
    match p.state with
    | .executing => e.closeWants p
    | .restoring => e.openWants p
    | _ => [])

/-- How long ago the order of a record became final. -/
def Ev.endAge (e : Ev) (i : Fin 64) : Nat :=
  match e.switching.records[i] with
  | none => 0
  | some o => match o.endStamp with
    | none => 0
    | some t => e.age t

/-- The index of the record a new order takes: a FREE one, otherwise the final record of the earliest end stamp, the
first in the table among equals (R111). The lowest-numbered FREE record is taken. -/
def Ev.recordFor (e : Ev) : Option (Fin 64) :=
  match idsWhere e.switching.records (fun r => r.isNone) with
  | i :: _ => some i
  | [] =>
    let finals := idsWhere e.switching.records (fun r => r.any (fun o => !o.state.nonFinal))
    match finals with
    | [] => none
    | i :: rest => some (rest.foldl (fun best j => if e.endAge best < e.endAge j then j else best) i)

/-- The next tag not held by a non-final order (R112). The fuel covers every tag. -/
def Ev.nextTag (e : Ev) : Nat → Nat → Nat
  | 0, t => t
  | k + 1, t =>
    let t' := (t + 1) % 256
    if (e.order? (fun o => o.tag == t' && o.state.nonFinal)).isSome then e.nextTag k t' else t'

/-- The class of an order (R114). -/
def classFor (action : OrderAction) (grade : Nat) : OrderClass :=
  match action with
  | .openValve => .openClass
  | .closeValve => match grade with
    | 1 => .close1
    | 2 => .close2
    | _ => .close3

/-- The path of a valve's orders (R111). -/
def pathFor (k : ValveKind) : OrderPath :=
  match k with
  | .remote => .remote
  | .manual => .crew

/-- The grade of a plan's incident (R114). -/
def Ev.gradeOfPlan (e : Ev) (n : Nat) : Nat :=
  match e.plan? n with
  | none => 3
  | some p => e.gradeOfIncident p.incident

/-- A wanted order queued in a record (R111, R112, R114). -/
def Ev.queueOrder (e : Ev) (w : Want) (i : Fin 64) : Ev :=
  let tag := e.nextTag 256 e.switching.lastTag
  let o : Order :=
    { tag := tag, valve := w.valve, path := pathFor e.table.valves[w.valve].kind, action := w.action, plan := w.plan,
      orderClass := classFor w.action (e.gradeOfPlan w.plan), rank := w.rank, reclose := w.reclose, state := .queued,
      port := none, deadline := none, endStamp := none }
  let e1 := (e.modSwitching (fun sw => { sw with records := upd sw.records i (fun _ => some o), lastTag := tag })).markSettle
  if w.reclose then e1.modPlan w.plan (fun p => { p with recloseWaiting := p.recloseWaiting.filter (fun v => v != w.valve) })
  else e1

/-- Records given to the orders wanted until none is wanted or none can be had (R113, R115). Each takes a record, so 64
records bound the fuel. -/
def Ev.serveOrders : Nat → Ev → Ev
  | 0, e => e
  | k + 1, e =>
    match e.wants, e.recordFor with
    | w :: _, some i => Ev.serveOrders k (e.queueOrder w i)
    | _, _ => e

/-! ## Closures complete (R132) -/

/-- A plan's closures are complete: EXECUTING, every close valve done, no CLOSE order non-final or waiting for a
record. -/
def Ev.closuresDone (e : Ev) (p : Plan) : Bool :=
  p.state == .executing && p.unfinished.isEmpty && p.recloseWaiting.isEmpty &&
    (e.order? (fun o => o.plan == p.number && o.action == .closeValve && o.state.nonFinal)).isNone

/-- A published pass that began before this event is still running (R132). -/
def Ev.passRuns (e : Ev) : Bool :=
  match e.tracer.engine with
  | .publishing _ => e.completed.isNone
  | _ => false

/-- The generation of the publication that decides a proof that begins now (R132, step 2). -/
def Ev.decisiveGeneration (e : Ev) : Word :=
  let next := nextSkipZero e.tracer.generation
  if e.passRuns then nextSkipZero next else next

/-- The awaiting publication mark of a plan follows its closures (R132). -/
def Ev.awaitOne (e : Ev) (n : Nat) : Ev :=
  match e.plan? n with
  | none => e
  | some p =>
    if e.closuresDone p && !p.awaiting then
      (e.modPlan n (fun q => { q with
        awaiting := true, closureStamp := some e.now, awaitedGeneration := some e.decisiveGeneration })).triggerPass
    else if p.awaiting && !e.closuresDone p then
      e.modPlan n (fun q => { q with awaiting := false, awaitedGeneration := none })
    else e

/-- The awaiting publication marks of every plan. -/
def Ev.awaitAll (e : Ev) : Ev := (e.planner.plans.map (fun p => p.number)).foldl (fun acc n => acc.awaitOne n) e

/-! ## Issue -/

/-- A plan is frozen (R128). -/
def Ev.frozenPlan (e : Ev) (n : Nat) : Bool :=
  match e.plan? n with
  | none => false
  | some p => p.frozen

/-- The authorisation sequence of a plan. -/
def Ev.sequenceOf (e : Ev) (n : Nat) : Word :=
  match e.plan? n with
  | none => 0
  | some p => p.authSequence

/-- One order goes before another by the keys of R116: class, authorisation sequence, rank, valve number. -/
def Ev.issuesBefore (e : Ev) (a b : Order) : Bool :=
  let da := authDistance e.planner.authCount (e.sequenceOf a.plan)
  let db := authDistance e.planner.authCount (e.sequenceOf b.plan)
  if a.orderClass ≠ b.orderClass then decide (a.orderClass.code < b.orderClass.code)
  else if da ≠ db then decide (db < da)
  else if a.rank ≠ b.rank then decide (a.rank < b.rank)
  else decide (a.valve.val < b.valve.val)

/-- The order the arbiter of a path issues first, among the QUEUED orders of plans that are not frozen (R116, R117). -/
def Ev.nextIssue (e : Ev) (path : OrderPath) : Option Order :=
  (sortBy e.issuesBefore (e.ordersWhere (fun o => o.path == path && o.state == .queued && !e.frozenPlan o.plan))).head?

/-- The orders of a path in flight. -/
def Ev.inFlight (e : Ev) (path : OrderPath) : Nat :=
  (e.ordersWhere (fun o => o.path == path && o.state.inFlight)).length

/-- An order SENT on a port, with its deadline (R116, R117). A crew task's port is recorded. -/
def Ev.issue (e : Ev) (o : Order) (port : Option Port) (deadline : Stamp) : Ev :=
  e.modOrders (fun x => x.tag == o.tag && x.state == .queued)
    (fun x => some { x with state := .sent, port := port, deadline := some deadline })

/-- The telemetry arbiter, again and again while it may issue (R116). At most 8 orders are in flight. -/
def Ev.telemetryArbiter : Nat → Ev → Ev
  | 0, e => e
  | k + 1, e =>
    match e.telemetryPort, e.nextIssue .remote with
    | some p, some o =>
      if e.inFlight .remote < e.table.params.remoteLimit ∧ e.ports[p].state = .up ∧ e.ports[p].hasRoom = true ∧
          e.switching.surveyPending = false then
        Ev.telemetryArbiter k
          ((e.issue o none (e.after (e.table.params.acceptDeadline * 1000))).send p (orderBody o e.table.valves[o.valve].travel))
      else e
    | _, _ => e

/-- The crew arbiter, again and again while it may issue (R117). At most 16 tasks are in flight. -/
def Ev.crewArbiter : Nat → Ev → Ev
  | 0, e => e
  | k + 1, e =>
    match e.firstPort (fun l => l.role == .dispatch && l.state == .up), e.nextIssue .crew with
    | some p, some o =>
      if e.inFlight .crew < e.table.params.crewLimit ∧ e.ports[p].hasRoom = true then
        Ev.crewArbiter k
          ((e.issue o (some p) (e.after (e.table.valves[o.valve].travel * 1000))).send p
            (crewTaskBody o (valvePlace e.table o.valve) e.table.valves[o.valve].travel))
      else e
    | _, _ => e

/-! ## Frames that wait for an entry of the telemetry queue -/

/-- The Poll Scheduler changed. -/
def Ev.modPoll (e : Ev) (f : Poll → Poll) : Ev := { e with poll := f e.poll }

/-- The overdue marks of some stations set or cleared. -/
def markOverdue (marks : Vector Bool 128) (stations : List StationId) (b : Bool) : Vector Bool 128 :=
  stations.foldl (fun acc i => upd acc i (fun _ => b)) marks

/-- A POLL LIST put on the telemetry queue: its stations have been asked for (R52, R54). -/
def Ev.queuePollList (e : Ev) (p : Port) (frame : Half) (stations : List StationId) : Ev :=
  (e.send p (pollListBody frame stations)).modPoll (fun s => { s with
    overdue := markOverdue s.overdue stations false, listCount := satInc 65535 s.listCount })

/-- The waiting list withdrawn: its stations are overdue and the withheld count moves (R54). -/
def Ev.withdrawPollList (e : Ev) : Ev :=
  match e.poll.waiting with
  | none => e
  | some w => e.modPoll (fun s => { s with
      waiting := none, overdue := markOverdue s.overdue w.2 true, withheldCount := satInc 65535 s.withheldCount })

/-- The SURVEY takes a free entry of the telemetry queue, ahead of any order (R127). -/
def Ev.serveSurvey (e : Ev) : Ev :=
  match e.telemetryPort with
  | none => e
  | some p =>
    if e.switching.surveyPending = true ∧ e.ports[p].state = .up ∧ e.ports[p].hasRoom = true then
      (e.send p surveyBody).modSwitching (fun sw => { sw with surveyPending := false })
    else e

/-- The waiting POLL LIST takes a free entry of the telemetry queue (R54, R176). -/
def Ev.serveWaitingList (e : Ev) : Ev :=
  match e.telemetryPort, e.poll.waiting with
  | some p, some w =>
    if e.ports[p].state = .up ∧ e.ports[p].hasRoom = true then
      (e.queuePollList p w.1 w.2).modPoll (fun s => { s with waiting := none })
    else e
  | _, _ => e

/-- What waits for the channels, in the order R176 gives: SURVEY, waiting POLL LIST, orders; and the crew tasks. -/
def Ev.serveChannels (e : Ev) : Ev :=
  Ev.crewArbiter 65 (Ev.telemetryArbiter 65 e.serveSurvey.serveWaitingList)

end Sys2Proof.Machine
end

