-- ==== Sys2Proof/Machine/Settle.lean ====
section
/-! DEFINITION. The end of an event: what the rules make happen "at each event after which" something holds. -/

namespace Sys2Proof.Machine

/-! ## Effective tiers (R47, R48) -/

/-- The tier an incident gives a station of a configured tier (R47). -/
def incidentTier (configured grade : Nat) : Nat := if grade ≤ 2 then 0 else min configured 1

/-- A segment lies in the region of a plan in PROVING (R47). -/
def Ev.inProvingRegion (e : Ev) (s : SegId) : Bool :=
  e.planner.plans.any (fun p => p.state == .proving && p.segs.contains s)

/-- A feed point is adjacent to the region of a plan in PROVING (R48). -/
def Ev.feedByProving (e : Ev) (f : FeedId) : Bool :=
  (e.planner.plans.filter (fun p => p.state == .proving)).any (fun p =>
    e.table.valves.toList.any (fun v => v.present &&
      ((v.sideA == .feed f && sideIn p.segs v.sideB) || (v.sideB == .feed f && sideIn p.segs v.sideA))))

/-- The effective tier of a station: the smallest candidate that applies (R47). -/
def Ev.effectiveTier (e : Ev) (st : StationStatic) : Nat :=
  match st.location with
  | .feed f => if e.feedByProving f then 0 else st.tier
  | .seg s =>
    let base := if e.inProvingRegion s then 0 else st.tier
    (e.calls.incidents.filter (fun i => i.segments.contains s)).foldl
      (fun acc i => min acc (incidentTier st.tier i.grade)) base

/-- Every present station's effective tier set afresh (R49). An absent station has no tier in use and keeps the value
held. -/
def Ev.setTiers (e : Ev) : Ev :=
  e.modPoll (fun s => { s with tiers := mapTable (fun i t =>
    match objectOf 128 i with
    | none => t
    | some k => if e.table.stations[k].present then e.effectiveTier e.table.stations[k] else t) s.tiers })

/-! ## The end of an event -/

/-- Restoration turns and what they leave to announce, order records, closures and the channels (R99, R113, R115, R116, R117,
R132, R141). -/
def Ev.settleSwitching (e : Ev) : Ev :=
  if e.resettle then ((Ev.serveOrders 64 e.restoreAll.announceIncomplete).awaitAll).serveChannels else e

/-- The planning engine takes its next plan (R93). -/
def Ev.settlePlanner (e : Ev) : Ev := if e.wake then Ev.feedEngine (e.planner.queue.length + 1) e else e

/-- The effective tiers (R49). -/
def Ev.settleTiers (e : Ev) : Ev := if e.retier then e.setTiers else e

/-- An ALARM RESYNC for each port whose queue holds 16 entries or fewer while its alarm-resync mark is set (R176). The
mark is set only on a full queue, so only freed entries bring a queue to this. -/
def Ev.serveResyncs (e : Ev) : Ev :=
  if e.freed then
    portsInOrder.foldl (fun acc p =>
      if acc.ports[p].resyncMark ∧ acc.ports[p].entries ≤ Config.resyncEntries then acc.resync p else acc) e
  else e

/-- The end of an event. -/
def Ev.finish (e : Ev) : State :=
  (((((e.settleSwitching).settlePlanner).settleTiers).settleTracer).sendIncidentNotices.sendAlarmNotices.serveResyncs).toState

/-- One event: what the rule of its block does, and then the end of the event. -/
def event (f : Ev → Ev) (s : State) : State := (f s.begin).finish

end Sys2Proof.Machine
end

