-- ==== Sys2Proof/Machine/Links.lean ====
section
/-! DEFINITION. Link ports: liveness and the port states (R173, R174), what a change of port state does in the other
blocks (R122, R127, R128, R129, R54, R166), and the taking of a request (R175). -/

namespace Sys2Proof.Machine

/-! ## What a change of port state does -/

/-- The port alarms at a change of port state (R157, R174). -/
def Ev.portAlarms (e : Ev) (p : Port) (old new : PortState) : Ev :=
  match old, new with
  | _, .silent => e.raise .portSilent p.val 2 noPlace
  | _, .lost => (e.clear .portSilent p.val).raise .portLost p.val 1 noPlace
  | .silent, .up => e.clear .portSilent p.val
  | .lost, .up => e.clear .portLost p.val
  | _, _ => e

/-- Every SENT remote order fails with fault COMMS (R122). They fail in the order of the order table (the model's choice,
notes/assumptions/59.md). -/
def Ev.failSent (e : Ev) : Ev :=
  (e.ordersWhere (fun o => o.path == .remote && o.state == .sent)).foldl
    (fun acc o => acc.failOrder o .failed .comms none) e

/-- The holder and frozen mark of a plan set. -/
def Ev.setHolder (e : Ev) (n : Nat) (h : Option Port) (frozen : Bool) : Ev :=
  (e.modPlan n (fun p => { p with holder := h, frozen := frozen })).markSettle

/-- The committed plans a silent console held pass to the lowest-numbered console that is UP, or are frozen (R128). -/
def Ev.handOver (e : Ev) (p : Port) : Ev :=
  ((e.planner.plans.filter (fun q => q.committed && q.holder == some p)).map (fun q => q.number)).foldl
    (fun acc n => match acc.firstPort LinkPort.consoleUp with
      | some h => (acc.setHolder n (some h) false).planNotice n .holder
      | none => (acc.setHolder n none true).planNotice n .frozen) e

/-- A console that enters UP adopts every frozen plan (R129). -/
def Ev.adopt (e : Ev) (p : Port) : Ev :=
  ((e.planner.plans.filter (fun q => q.frozen)).map (fun q => q.number)).foldl
    (fun acc n => (acc.setHolder n (some p) false).planNotice n .adopted) e

/-- What the telemetry port's change of state does (R122, R127, R54). The survey-pending mark is set at the first entry
to UP and at a return from LOST. -/
def Ev.telemetryChange (e : Ev) (old new : PortState) : Ev :=
  match old, new with
  | .down, .up | .lost, .up => (e.modSwitching (fun sw => { sw with surveyPending := true })).markSettle
  | _, .up => e.markSettle
  | _, .lost => e.failSent.withdrawPollList
  | _, _ => e.withdrawPollList

/-- What a console port's change of state does (R128, R129). -/
def Ev.consoleChange (e : Ev) (p : Port) (old new : PortState) : Ev :=
  match old, new with
  | _, .up => e.adopt p
  | .up, _ => e.handOver p
  | _, _ => e

/-- The delivery of a change of port state to the blocks that read it (R174, step 4). A dispatch port that enters or leaves UP
may be or make way for the port that the crew arbiter looks to (R117). -/
def Ev.deliverPortState (e : Ev) (p : Port) (old new : PortState) : Ev :=
  match e.ports[p].role with
  | .telemetry => if e.telemetryPort = some p then e.telemetryChange old new else e
  | .console => e.consoleChange p old new
  | .dispatch => if new = .up ∨ old = .up then e.markSettle else e
  | .unused => e

/-- A change of port state, steps 2 to 4 of R174: the port already stands in its new state. On its own queue an ALARM
RESYNC of R166 comes before the PORT NOTICE. -/
def Ev.portChanged (e : Ev) (p : Port) (old new : PortState) (reset : Bool) : Ev :=
  let e1 := e.portAlarms p old new
  let e2 := if e1.ports[p].role = .console ∧ new = .up then e1.resync p else e1
  (e2.portNotice p old new reset).deliverPortState p old new

/-! ## Liveness (R173) -/

/-- The liveness deadline set from now (R173). -/
def Ev.armLiveness (e : Ev) (p : Port) : Ev :=
  e.modPort p (fun l => { l with liveness := some (e.after (e.table.params.silence * 1000)) })

/-- A valid frame reaches the liveness of its port: it is counted, the deadline is reloaded, and the port comes to UP,
with a port reset on a return from LOST (R171, R173, R174). -/
def Ev.frameSeen (e : Ev) (p : Port) : Ev :=
  let old := e.ports[p].state
  let e1 := (e.modPort p (fun l => { l with validCount := satInc 65535 l.validCount, state := .up })).armLiveness p
  match old with
  | .up => e1
  | .lost => (e1.portReset p).portChanged p .lost .up true
  | _ => e1.portChanged p old .up false

/-- The expiry of a port's liveness deadline (R173). -/
def Ev.livenessExpired (e : Ev) (p : Port) : Ev :=
  match e.ports[p].state with
  | .up => ((e.modPort p (fun l => { l with state := .silent })).armLiveness p).portChanged p .up .silent false
  | .silent => (e.modPort p (fun l => { l with state := .lost, liveness := none })).portChanged p .silent .lost false
  | _ => e

/-! ## The taking of a request (R175) -/

/-- The requests a working role permits (section 11.4). -/
def Role.permits (r : Role) (kind : Byte) : Bool :=
  let k := kind.toNat
  let common := decide (0x30 ≤ k ∧ k ≤ 0x39)
  match r with
  | .telemetry => decide (0x01 ≤ k ∧ k ≤ 0x05) || common
  | .dispatch => decide (0x08 ≤ k ∧ k ≤ 0x0E) || common
  | .console => decide (0x10 ≤ k ∧ k ≤ 0x1B) || decide (0x20 ≤ k ∧ k ≤ 0x2A) || common
  | .unused => false

/-- One of the port's free entries is held for the reply (R175). -/
def Ev.holdEntry (e : Ev) (p : Port) : Ev := e.modPort p (fun l => { l with held := l.held + 1 })

/-- A frame tested as a request and handed to its block (R175). `bad` is the failure of tests 2 and 3, if any. -/
def Ev.offer (e : Ev) (q : Sender) (bad : Option ReplyCode) (block : Ev → Ev) : Ev :=
  if e.ports[q.port].hasRoom then
    let e1 := e.holdEntry q.port
    match bad with
    | some code => e1.refuse q code
    | none => if e1.ports[q.port].role.permits q.kind then block e1 else e1.refuse q .roleRefused
  else e.modPort q.port (fun l => { l with discardCount := satInc 65535 l.discardCount })

/-- A valid frame taken: first by the liveness of its port, then as a request (R173, R175). Each is one event. On a port
whose working role is UNUSED no frame forms (R171). -/
def takeFrame (q : Sender) (bad : Option ReplyCode) (block : Ev → Ev) (s : State) : State :=
  if s.ports[q.port].role = .unused then s
  else event (fun e => e.offer q bad block) (event (fun e => e.frameSeen q.port) s)

/-- A request whose KIND and LEN are right. -/
def request (p : Port) (seq kind : Byte) (block : Sender → Ev → Ev) (s : State) : State :=
  takeFrame ⟨p, seq, kind⟩ none (block ⟨p, seq, kind⟩) s

/-! ## Expiries and freed entries -/

/-- GAP_DEADLINE_EXPIRY (R172): the bytes held are discarded without re-examination. -/
def gapBlock (p : Port) (e : Ev) : Ev :=
  if expired e.now e.ports[p].gap ∧ e.ports[p].receiver ≠ .hunting then
    e.modPort p (fun l => { l with receiver := .hunting, gap := none, abortCount := satInc 65535 l.abortCount })
  else e

/-- LIVENESS_DEADLINE_EXPIRY (R173): nothing happens unless the deadline runs and has been reached. -/
def livenessBlock (p : Port) (e : Ev) : Ev :=
  if expired e.now e.ports[p].liveness then e.livenessExpired p else e

/-- QUEUE_ENTRY_FREED (R176): the oldest frame has been sent, and its entry goes to the frames that wait. -/
def queueBlock (p : Port) (e : Ev) : Ev :=
  match e.ports[p].queue with
  | [] => e
  | _ :: rest => { (e.modPort p (fun l => { l with queue := rest })).markSettle with freed := true }

/-- LINK RESET (R177): a port reset, the reply as the first frame of the emptied queue, and an ALARM RESYNC on a
console. -/
def linkResetBlock (q : Sender) (e : Ev) : Ev :=
  let e1 := (e.portReset q.port).ok q
  if e1.ports[q.port].role = .console then e1.resync q.port else e1

/-- The meaning of GAP_DEADLINE_EXPIRY. -/
def execGapDeadlineExpiry (p : Port) (s : State) : Host.Outcome State Fault Refusal := .next (event (gapBlock p) s)

/-- The meaning of LIVENESS_DEADLINE_EXPIRY. -/
def execLivenessDeadlineExpiry (p : Port) (s : State) : Host.Outcome State Fault Refusal :=
  .next (event (livenessBlock p) s)

/-- The meaning of QUEUE_ENTRY_FREED. -/
def execQueueEntryFreed (p : Port) (s : State) : Host.Outcome State Fault Refusal := .next (event (queueBlock p) s)

/-- The meaning of LINK_RESET. -/
def execLinkReset (p : Port) (seq : Byte) (s : State) : Host.Outcome State Fault Refusal :=
  .next (request p seq 0x30 linkResetBlock s)

end Sys2Proof.Machine
end

