-- ==== Sys2Proof/Machine/PollSchedule.lean ====
section
/-! DEFINITION. The Poll Scheduler's frame start (R21, R46, R50 to R54). -/

namespace Sys2Proof.Machine

/-- A station is due in a frame: the two numbers agree modulo 2^e, for its effective tier e (R46). -/
def dueIn (frame tier station : Nat) : Bool := frame % 2 ^ tier == station % 2 ^ tier

/-- A present station that is due or overdue (R50, step 2). -/
def Ev.isCandidate (e : Ev) (i : StationId) : Bool :=
  dueIn e.frameNumber.toNat e.poll.tiers[i] i.val || e.poll.overdue[i]

/-- The keys of R50: overdue first, then effective tier, then station number. -/
def Ev.pollsBefore (e : Ev) (a b : StationId) : Bool :=
  if e.poll.overdue[a] ≠ e.poll.overdue[b] then e.poll.overdue[a]
  else if e.poll.tiers[a] ≠ e.poll.tiers[b] then decide (e.poll.tiers[a] < e.poll.tiers[b])
  else decide (a.val < b.val)

/-- The sorted candidates of the frame (R50). -/
def Ev.candidates (e : Ev) : List StationId :=
  sortBy e.pollsBefore ((idsWhere e.table.stations (fun s => s.present)).filter (fun i => e.isCandidate i))

/-- Stations marked overdue. -/
def Ev.setOverdue (e : Ev) (stations : List StationId) : Ev :=
  e.modPoll (fun s => { s with overdue := markOverdue s.overdue stations true })

/-- The withheld count moved (R53, R54). -/
def Ev.withhold (e : Ev) : Ev := e.modPoll (fun s => { s with withheldCount := satInc 65535 s.withheldCount })

/-- The list of a frame on a telemetry port that is UP: queued, or left waiting (R51, R52, R54). -/
def Ev.offerList (e : Ev) (p : Port) (cs : List StationId) : Ev :=
  let b := e.table.params.pollBudget
  let e1 := (e.setOverdue (cs.drop b)).serveSurvey
  if e1.ports[p].hasRoom then e1.queuePollList p e1.frameNumber (cs.take b)
  else e1.modPoll (fun s => { s with waiting := some (e1.frameNumber, cs.take b) })

/-- The list disposed of by the state of the telemetry port (R52, R53, R54). -/
def Ev.disposeList (e : Ev) (cs : List StationId) : Ev :=
  match e.telemetryPort with
  | none => (e.setOverdue cs).withhold
  | some p => if e.ports[p].state = .up then e.offerList p cs else (e.setOverdue cs).withhold

/-- The advance of the frame (R21). -/
def Ev.advanceFrame (e : Ev) : Ev :=
  { e with frameNumber := e.frameNumber + 1, nextFrame := e.after e.table.params.framePeriod }

/-- FRAME_START (R50): nothing happens before the time of the next frame start. -/
def frameBlock (e : Ev) : Ev :=
  if reached e.now e.nextFrame then
    let e1 := e.advanceFrame.withdrawPollList
    e1.disposeList e1.candidates
  else e

/-- The meaning of FRAME_START. -/
def execFrameStart (s : State) : Host.Outcome State Fault Refusal := .next (event frameBlock s)

end Sys2Proof.Machine
end

