-- ==== Sys2Proof/WellFormed.lean ====
section
/-! DEFINITION. Which commands a link, a line or a deadline can spell at all. The widths of the fields are in their
types; what is left is the list of SUBSCRIBE and the tags and numbers that the part never gives. -/

namespace Sys2Proof

/-- SUBSCRIBE carries as many districts as its count byte says (R180), and a body is at most 250 bytes (R170). -/
def subscribeFits (count : Byte) (districts : List Byte) : Bool :=
  districts.length == count.toNat && decide (districts.length ≤ 247)

/-- A plan deadline belongs to a plan that has a number, 1 to 65,535 (R91). -/
def planNumbered (plan : Half) : Bool := plan != 0

/-- The commands that some frame, line or deadline of the part spells. -/
def Instr.wf : Instr → Bool
  | .subscribe _ _ count districts => subscribeFits count districts
  | .windowDeadlineExpiry n => planNumbered n
  | .proofDeadlineExpiry n => planNumbered n
  | _ => true

end Sys2Proof
end

