-- ==== Sys2Proof/Decode.lean ====
section
/-! DEFINITION. Decoding. No row of the opcode table has bits of its own, so `decodeTableWord` reads nothing. What the
part does decode is the body of a frame: KIND, SEQ and the fields of R181 and R182. The CRC of R170 stands here too, and
after the decoder the encoder of a request's body, which the round trip is stated with. -/

namespace Sys2Proof

/-- The command a word of the opcode table's bits spells: none, since the table gives no row any bits. -/
def decodeTableWord (_nbits _w : Nat) : Option Instr := none

/-! ## Fields (R179) -/

/-- A two-byte field, high byte first. -/
def half (hi lo : Byte) : Half := hi ++ lo
/-- A four-byte field, high byte first. -/
def word (a b c d : Byte) : Word := a ++ b ++ c ++ d
/-- The bytes of a two-byte field. -/
def halfBytes (w : Half) : List Byte := [w.extractLsb' 8 8, w.extractLsb' 0 8]
/-- The bytes of a four-byte field. -/
def wordBytes (w : Word) : List Byte :=
  [w.extractLsb' 24 8, w.extractLsb' 16 8, w.extractLsb' 8 8, w.extractLsb' 0 8]

/-- What reads the fields of one request: none where their length is not the request's. -/
abbrev Reader := List Byte → Option Instr

/-- One byte, and then the rest. -/
def b1 (k : Byte → Reader) : Reader
  | a :: rest => k a rest
  | _ => none
/-- A two-byte field, and then the rest. -/
def b2 (k : Half → Reader) : Reader
  | a :: b :: rest => k (half a b) rest
  | _ => none
/-- A four-byte field, and then the rest. -/
def b4 (k : Word → Reader) : Reader
  | a :: b :: c :: d :: rest => k (word a b c d) rest
  | _ => none
/-- The end of the fields. -/
def done (i : Instr) : Reader
  | [] => some i
  | _ => none

/-- The fields of SUBSCRIBE after its count: that many districts (R180). -/
def readDistricts (p : Port) (seq count : Byte) : Reader := fun fields =>
  if fields.length = count.toNat then some (.subscribe p seq count fields) else none

/-- What reads the fields of a request of a KIND: none for a KIND that names no request (R180 to R184). -/
def requestReader (p : Port) (seq : Byte) (kind : Nat) : Option Reader :=
  match kind with
  | 0x01 => some (b1 fun station => b2 fun raw => b1 fun quality => done (.reading p seq station raw quality))
  | 0x02 => some (b2 fun valve => b1 fun position => b1 fun flags => done (.valveReport p seq valve position flags))
  | 0x03 => some (b1 fun tag => b2 fun valve => done (.orderAccept p seq tag valve))
  | 0x04 => some (b1 fun tag => b2 fun valve => b1 fun position => done (.orderDone p seq tag valve position))
  | 0x05 => some (b1 fun tag => b2 fun valve => b1 fun reason => done (.orderFail p seq tag valve reason))
  | 0x08 => some (
      b4 fun ref => b1 fun segment => b1 fun grade => b1 fun place => done (.call p seq ref segment grade place))
  | 0x09 => some (b4 fun ref => b1 fun state => done (.callUpdate p seq ref state))
  | 0x0A => some (b1 fun incident => done (.madeSafe p seq incident))
  | 0x0B => some (b1 fun record => b1 fun segment => b2 fun count => done (.relightReport p seq record segment count))
  | 0x0C => some (b1 fun tag => b2 fun valve => b1 fun position => done (.crewDone p seq tag valve position))
  | 0x0D => some (b1 fun tag => b2 fun valve => b1 fun reason => done (.crewFail p seq tag valve reason))
  | 0x0E => some (
      b2 fun valve => b1 fun position => b1 fun flags => done (.crewValveReport p seq valve position flags))
  | 0x10 => some (
      b1 fun segment => b1 fun presence => b1 fun zone => b2 fun customers =>
      done (.writeSegment p seq segment presence zone customers))
  | 0x11 => some (
      b2 fun valve => b1 fun presence => b2 fun sideA => b2 fun sideB => b1 fun kind => b1 fun normal =>
      b1 fun noClose => b2 fun travel =>
      done (.writeValve p seq valve presence sideA sideB kind normal noClose travel))
  | 0x12 => some (
      b1 fun feed => b1 fun presence => b4 fun minimum => b4 fun deadband =>
      done (.writeFeed p seq feed presence minimum deadband))
  | 0x13 => some (
      b1 fun station => b1 fun presence => b2 fun location => b2 fun zero => b2 fun span => b4 fun fullScale =>
      b1 fun shift => b1 fun tier => b4 fun ll => b4 fun l => b4 fun h => b4 fun hh => b4 fun deadband =>
      b4 fun fall =>
      done (.writeStation p seq station presence location zero span fullScale shift tier ll l h hh deadband fall))
  | 0x14 => some (b1 fun port => b1 fun role => b4 fun rate => done (.writePort p seq port role rate))
  | 0x15 => some (b1 fun parameter => b4 fun value => done (.writeParameter p seq parameter value))
  | 0x16 => some (done (.store p seq))
  | 0x17 => some (done (.start p seq))
  | 0x18 => some (done (.lock p seq))
  | 0x19 => some (
      b1 fun station => b4 fun ll => b4 fun l => b4 fun h => b4 fun hh => b4 fun deadband => b4 fun fall =>
      done (.limitsWrite p seq station ll l h hh deadband fall))
  | 0x1A => some (b1 fun station => done (.collect p seq station))
  | 0x1B => some (b2 fun valve => done (.clearFault p seq valve))
  | 0x20 => some (b1 fun incident => done (.plan p seq incident))
  | 0x21 => some (b2 fun plan => b1 fun stage => done (.authorise p seq plan stage))
  | 0x22 => some (b2 fun plan => done (.cancel p seq plan))
  | 0x23 => some (b2 fun plan => done (.widen p seq plan))
  | 0x24 => some (b2 fun plan => done (.confirm p seq plan))
  | 0x25 => some (b2 fun plan => done (.restore p seq plan))
  | 0x26 => some (b1 fun incident => done (.closeIncident p seq incident))
  | 0x27 => some (b1 fun record => done (.closeOutage p seq record))
  | 0x28 => some (b1 fun kind => b2 fun object => done (.ack p seq kind object))
  | 0x29 => some (b1 fun count fields => readDistricts p seq count fields)
  | 0x2A => some (done (.silence p seq))
  | 0x30 => some (done (.linkReset p seq))
  | 0x31 => some (b1 fun segment => done (.readSegment p seq segment))
  | 0x32 => some (b2 fun valve => done (.readValve p seq valve))
  | 0x33 => some (b1 fun station => done (.readStation p seq station))
  | 0x34 => some (b2 fun plan => b1 fun list => b1 fun start => done (.readPlan p seq plan list start))
  | 0x35 => some (b1 fun incident => b1 fun start => done (.readIncident p seq incident start))
  | 0x36 => some (b4 fun ref => done (.readCall p seq ref))
  | 0x37 => some (b1 fun record => b1 fun list => b1 fun start => done (.readOutage p seq record list start))
  | 0x38 => some (b1 fun start => done (.readAlarms p seq start))
  | 0x39 => some (b1 fun port => done (.readPort p seq port))
  | _ => none

/-- Why a body is no request: tests 2 and 3 of R175. -/
inductive BodyFault where
  | unknownKind
  | badLength
deriving DecidableEq, Repr

/-- The fields of a body read by its reader, if its KIND has one. -/
def readBody (r : Option Reader) (fields : List Byte) : Except BodyFault Instr :=
  match r with
  | none => .error .unknownKind
  | some read =>
    match read fields with
    | none => .error .badLength
    | some i => .ok i

/-- The request a frame's body carries (R175, tests 2 and 3). -/
def decodeBody (p : Port) (body : List Byte) : Except BodyFault Instr :=
  match body with
  | kind :: seq :: fields => readBody (requestReader p seq kind.toNat) fields
  | _ => .error .badLength

/-! ## The CRC (R170) -/

/-- One bit taken into the CRC, generator x^16 + x^12 + x^5 + 1. -/
def crcBit (c : Half) (bit : Bool) : Half := (c <<< 1) ^^^ (if c.msb != bit then 0x1021#16 else 0#16)

/-- One byte taken into the CRC, most significant bit first. -/
def crcByte (c : Half) (b : Byte) : Half :=
  [7, 6, 5, 4, 3, 2, 1, 0].foldl (fun acc k => crcBit acc (b.getLsbD k)) c

/-- The CRC over some bytes: the LEN byte and the body of a frame. -/
def crc (bytes : List Byte) : Half := bytes.foldl crcByte 0xFFFF#16

/-! ## The encoder -/

/-- The body of the frame that carries a request; none for a command that no frame carries. -/
def Instr.body (i : Instr) : Option (List Byte) :=
  match i with
  | .reading _ seq station raw quality => some ([0x01, seq] ++ [station] ++ halfBytes raw ++ [quality])
  | .valveReport _ seq valve position flags => some ([0x02, seq] ++ halfBytes valve ++ [position] ++ [flags])
  | .orderAccept _ seq tag valve => some ([0x03, seq] ++ [tag] ++ halfBytes valve)
  | .orderDone _ seq tag valve position => some ([0x04, seq] ++ [tag] ++ halfBytes valve ++ [position])
  | .orderFail _ seq tag valve reason => some ([0x05, seq] ++ [tag] ++ halfBytes valve ++ [reason])
  | .call _ seq ref segment grade place => some ([0x08, seq] ++ wordBytes ref ++ [segment] ++ [grade] ++ [place])
  | .callUpdate _ seq ref state => some ([0x09, seq] ++ wordBytes ref ++ [state])
  | .madeSafe _ seq incident => some ([0x0A, seq] ++ [incident])
  | .relightReport _ seq record segment count => some ([0x0B, seq] ++ [record] ++ [segment] ++ halfBytes count)
  | .crewDone _ seq tag valve position => some ([0x0C, seq] ++ [tag] ++ halfBytes valve ++ [position])
  | .crewFail _ seq tag valve reason => some ([0x0D, seq] ++ [tag] ++ halfBytes valve ++ [reason])
  | .crewValveReport _ seq valve position flags => some ([0x0E, seq] ++ halfBytes valve ++ [position] ++ [flags])
  | .writeSegment _ seq segment presence zone customers =>
    some ([0x10, seq] ++ [segment] ++ [presence] ++ [zone] ++ halfBytes customers)
  | .writeValve _ seq valve presence sideA sideB kind normal noClose travel =>
    some ([0x11, seq] ++ halfBytes valve ++ [presence] ++ halfBytes sideA ++ halfBytes sideB ++ [kind] ++ [normal] ++
      [noClose] ++ halfBytes travel)
  | .writeFeed _ seq feed presence minimum deadband =>
    some ([0x12, seq] ++ [feed] ++ [presence] ++ wordBytes minimum ++ wordBytes deadband)
  | .writeStation _ seq station presence location zero span fullScale shift tier ll l h hh deadband fall =>
    some ([0x13, seq] ++ [station] ++ [presence] ++ halfBytes location ++ halfBytes zero ++ halfBytes span ++
      wordBytes fullScale ++ [shift] ++ [tier] ++ wordBytes ll ++ wordBytes l ++ wordBytes h ++ wordBytes hh ++
      wordBytes deadband ++ wordBytes fall)
  | .writePort _ seq port role rate => some ([0x14, seq] ++ [port] ++ [role] ++ wordBytes rate)
  | .writeParameter _ seq parameter value => some ([0x15, seq] ++ [parameter] ++ wordBytes value)
  | .store _ seq => some ([0x16, seq])
  | .start _ seq => some ([0x17, seq])
  | .lock _ seq => some ([0x18, seq])
  | .limitsWrite _ seq station ll l h hh deadband fall =>
    some ([0x19, seq] ++ [station] ++ wordBytes ll ++ wordBytes l ++ wordBytes h ++ wordBytes hh ++ wordBytes deadband ++
      wordBytes fall)
  | .collect _ seq station => some ([0x1A, seq] ++ [station])
  | .clearFault _ seq valve => some ([0x1B, seq] ++ halfBytes valve)
  | .plan _ seq incident => some ([0x20, seq] ++ [incident])
  | .authorise _ seq number stage => some ([0x21, seq] ++ halfBytes number ++ [stage])
  | .cancel _ seq number => some ([0x22, seq] ++ halfBytes number)
  | .widen _ seq number => some ([0x23, seq] ++ halfBytes number)
  | .confirm _ seq number => some ([0x24, seq] ++ halfBytes number)
  | .restore _ seq number => some ([0x25, seq] ++ halfBytes number)
  | .closeIncident _ seq incident => some ([0x26, seq] ++ [incident])
  | .closeOutage _ seq record => some ([0x27, seq] ++ [record])
  | .ack _ seq kind object => some ([0x28, seq] ++ [kind] ++ halfBytes object)
  | .silence _ seq => some ([0x2A, seq])
  | .linkReset _ seq => some ([0x30, seq])
  | .readSegment _ seq segment => some ([0x31, seq] ++ [segment])
  | .readValve _ seq valve => some ([0x32, seq] ++ halfBytes valve)
  | .readStation _ seq station => some ([0x33, seq] ++ [station])
  | .readPlan _ seq number list first => some ([0x34, seq] ++ halfBytes number ++ [list] ++ [first])
  | .readIncident _ seq incident first => some ([0x35, seq] ++ [incident] ++ [first])
  | .readCall _ seq ref => some ([0x36, seq] ++ wordBytes ref)
  | .readOutage _ seq record list first => some ([0x37, seq] ++ [record] ++ [list] ++ [first])
  | .readAlarms _ seq first => some ([0x38, seq] ++ [first])
  | .readPort _ seq port => some ([0x39, seq] ++ [port])
  | .subscribe _ seq count districts => some ([0x29, seq, count] ++ districts)
  | .deviceReset _ => none
  | .receiveByte _ _ => none
  | .gapDeadlineExpiry _ => none
  | .livenessDeadlineExpiry _ => none
  | .queueEntryFreed _ => none
  | .stalenessDeadlineExpiry _ => none
  | .acceptDeadlineExpiry _ => none
  | .travelDeadlineExpiry _ => none
  | .crewTaskDeadlineExpiry _ => none
  | .hypotheticalResult => none
  | .windowDeadlineExpiry _ => none
  | .proofDeadlineExpiry _ => none
  | .publication => none
  | .publicationSuppression => none
  | .publicationOutages => none
  | .publicationProving => none
  | .frameStart => none
  | .storeEnd => none

/-- The port a request comes in on; LP0 for a command that no frame carries. -/
def Instr.port (i : Instr) : Port :=
  match i with
  | .reading p _ _ _ _ => p
  | .valveReport p _ _ _ _ => p
  | .orderAccept p _ _ _ => p
  | .orderDone p _ _ _ _ => p
  | .orderFail p _ _ _ _ => p
  | .call p _ _ _ _ _ => p
  | .callUpdate p _ _ _ => p
  | .madeSafe p _ _ => p
  | .relightReport p _ _ _ _ => p
  | .crewDone p _ _ _ _ => p
  | .crewFail p _ _ _ _ => p
  | .crewValveReport p _ _ _ _ => p
  | .writeSegment p _ _ _ _ _ => p
  | .writeValve p _ _ _ _ _ _ _ _ _ => p
  | .writeFeed p _ _ _ _ _ => p
  | .writeStation p _ _ _ _ _ _ _ _ _ _ _ _ _ _ _ => p
  | .writePort p _ _ _ _ => p
  | .writeParameter p _ _ _ => p
  | .store p _ => p
  | .start p _ => p
  | .lock p _ => p
  | .limitsWrite p _ _ _ _ _ _ _ _ => p
  | .collect p _ _ => p
  | .clearFault p _ _ => p
  | .plan p _ _ => p
  | .authorise p _ _ _ => p
  | .cancel p _ _ => p
  | .widen p _ _ => p
  | .confirm p _ _ => p
  | .restore p _ _ => p
  | .closeIncident p _ _ => p
  | .closeOutage p _ _ => p
  | .ack p _ _ _ => p
  | .silence p _ => p
  | .linkReset p _ => p
  | .readSegment p _ _ => p
  | .readValve p _ _ => p
  | .readStation p _ _ => p
  | .readPlan p _ _ _ _ => p
  | .readIncident p _ _ _ => p
  | .readCall p _ _ => p
  | .readOutage p _ _ _ _ => p
  | .readAlarms p _ _ => p
  | .readPort p _ _ => p
  | .subscribe p _ _ _ => p
  | .deviceReset _ => 0
  | .receiveByte _ _ => 0
  | .gapDeadlineExpiry _ => 0
  | .livenessDeadlineExpiry _ => 0
  | .queueEntryFreed _ => 0
  | .stalenessDeadlineExpiry _ => 0
  | .acceptDeadlineExpiry _ => 0
  | .travelDeadlineExpiry _ => 0
  | .crewTaskDeadlineExpiry _ => 0
  | .hypotheticalResult => 0
  | .windowDeadlineExpiry _ => 0
  | .proofDeadlineExpiry _ => 0
  | .publication => 0
  | .publicationSuppression => 0
  | .publicationOutages => 0
  | .publicationProving => 0
  | .frameStart => 0
  | .storeEnd => 0

/-- The frame on the line: SYNC, LEN, body, CRC (R170). -/
def frameBytes (body : List Byte) : List Byte :=
  let len : Byte := BitVec.ofNat 8 body.length
  [0xC5, len] ++ body ++ halfBytes (crc (len :: body))

end Sys2Proof
end

