-- ==== Sys2Proof/Machine/Alarms.lean ====
section
/-! DEFINITION. The consoles' requests to the Alarm List: ACK (R160), SUBSCRIBE (R164) and SILENCE (R168). -/

namespace Sys2Proof.Machine

/-- An ACK of a record held (R160). -/
def Ev.acknowledge (e : Ev) (r : AlarmRec) : Ev :=
  match r.kind with
  | .overflow => e.ackOverflow r
  | _ => e.ackGeneral r

/-- ACK (R160). -/
def ackBlock (kind : Byte) (object : Half) (q : Sender) (e : Ev) : Ev :=
  match alarmKindOf kind with
  | none => e.refuse q .stateRefused
  | some k =>
    match e.alarms.held k object.toNat with
    | none => e.refuse q .noSuchObject
    | some r => (e.ok q).acknowledge r

/-- The districts a SUBSCRIBE stores, each once (R164). They stand in the order given, a district named twice at its first place
(the model's choice, notes/assumptions/68.md). -/
def storedDistricts (districts : List Byte) : List Nat := dedup [] (districts.map (fun d => d.toNat))

/-- The list of a SUBSCRIBE is one that may be stored (R164). -/
def districtsOk (districts : List Byte) : Bool :=
  decide (districts.length ≤ 4) && districts.all (fun d => decide (d.toNat ≤ 15))

/-- The result of a SUBSCRIBE: the stored list with its count (R182). -/
def districtBytes (ds : List Nat) : List Byte := countByte ds.length ++ ds.map (fun d => BitVec.ofNat 8 d)

/-- SUBSCRIBE (R164). -/
def subscribeBlock (districts : List Byte) (q : Sender) (e : Ev) : Ev :=
  if districtsOk districts then
    (e.modAlarms (fun a => { a with
      subscriptions := upd a.subscriptions q.port (fun _ => storedDistricts districts) })).reply q .ok
        (districtBytes (storedDistricts districts))
  else e.refuse q .stateRefused

/-- SILENCE (R168). -/
def silenceBlock (q : Sender) (e : Ev) : Ev := (e.modAlarms (fun a => { a with silenced := true })).ok q

/-- The meaning of ACK. -/
def execAck (p : Port) (seq kind : Byte) (object : Half) (s : State) : Host.Outcome State Fault Refusal :=
  .next (request p seq 0x28 (ackBlock kind object) s)

/-- The meaning of SUBSCRIBE. A list of another length than the count says fails test 3 of R175 (R180). -/
def execSubscribe (p : Port) (seq count : Byte) (districts : List Byte) (s : State) :
    Host.Outcome State Fault Refusal :=
  .next (takeFrame ⟨p, seq, 0x29⟩ (if subscribeFits count districts then none else some .badLength)
    (subscribeBlock districts ⟨p, seq, 0x29⟩) s)

/-- The meaning of SILENCE. -/
def execSilence (p : Port) (seq : Byte) (s : State) : Host.Outcome State Fault Refusal :=
  .next (request p seq 0x2A silenceBlock s)

end Sys2Proof.Machine
end

