-- ==== Sys2Proof/Machine/Feeds.lean ====
section
/-! DEFINITION. Feed states and the cause notes: a change of feed state with all it does (R43), the cause notes of the
Outage Register (R146), and the staleness span (R34). -/

namespace Sys2Proof.Machine

/-! ## Cause notes (R146) -/

/-- The Outage Register changed. -/
def Ev.modOutages (e : Ev) (f : OutageRegister → OutageRegister) : Ev := { e with outages := f e.outages }

/-- An event reported to a cause note: an empty note takes it as first and last, a held one as last (R146). -/
def CauseNote.take (n : Option CauseNote) (now : Stamp) (order : Nat) : CauseNote :=
  match n with
  | none => ⟨now, order, now, order⟩
  | some c => { c with lastStamp := now, lastOrder := order }

/-- A feed failure reported to the Outage Register (R43, R146). -/
def Ev.noteFeed (e : Ev) : Ev :=
  e.modOutages (fun o => { o with feedNote := some (CauseNote.take o.feedNote e.now e.events) })

/-- An unplanned movement reported to the Outage Register (R124, R146). -/
def Ev.noteMovement (e : Ev) : Ev :=
  e.modOutages (fun o => { o with movementNote := some (CauseNote.take o.movementNote e.now e.events) })

/-! ## Feed state (R43) -/

/-- The feed state set, with the revision and a pass trigger. Setting the state held is no change (R12, R43, R62). -/
def Ev.moveFeed (e : Ev) (f : FeedId) (st : FeedState) : Ev :=
  if e.feedState[f] = st then e
  else (({ e with feedState := upd e.feedState f (fun _ => st) } : Ev).bump).triggerPass

/-- The FEED_FAILED alarm and the report to the Outage Register at a change of feed state (R43). -/
def Ev.feedEffects (e : Ev) (f : FeedId) (st : FeedState) : Ev :=
  match st with
  | .failed => (e.raise .feedFailed f.val 1 noPlace).noteFeed
  | .accepted => e.clear .feedFailed f.val
  | .doubtful => e

/-- A change of feed state with its effects; an evaluation that leaves the state as it was has none (R43). -/
def Ev.setFeed (e : Ev) (f : FeedId) (st : FeedState) : Ev :=
  if e.feedState[f] = st then e else (e.moveFeed f st).feedEffects f st

/-- The feed of a location becomes DOUBTFUL (R42). -/
def Ev.doubtFeed (e : Ev) (l : Side) : Ev :=
  match l with
  | .seg _ => e
  | .feed f => e.setFeed f .doubtful

/-! ## Stations -/

/-- A segment published ISOLATED or DEAD (R22, R39). -/
def Supply.cutOff (s : Supply) : Bool := s == .isolated || s == .dead

/-- One station's live state changed. -/
def Ev.modStation (e : Ev) (i : StationId) (f : StationLive → StationLive) : Ev :=
  { e with stationLive := upd e.stationLive i f }

/-- The staleness span in milliseconds for an effective tier and a scan frame period (R34). -/
def stalenessSpan (tier framePeriod : Nat) : Nat := (3 * 2 ^ tier + 2) * framePeriod

/-- The staleness deadline of a station set from now (R34). -/
def Ev.armStaleness (e : Ev) (i : StationId) : Ev :=
  e.modStation i (fun l => { l with
    staleness := some (e.after (stalenessSpan e.poll.tiers[i] e.table.params.framePeriod)) })

end Sys2Proof.Machine
end

