-- ==== Sys2Proof/Machine/Calls.lean ====
section
/-! DEFINITION. The Call Register: calls and their grouping (R75 to R79), grades (R80), arrival lists and escalation (R81,
R82), pressure-derived incidents (R83), and the requests that move calls and incidents (R85 to R87). -/

namespace Sys2Proof.Machine

/-! ## Grades (R80) -/

/-- The grade of an incident from its calls, its origin and its escalated mark (R80). -/
def CallRegister.gradeFor (c : CallRegister) (i : Incident) : Nat :=
  let base := if i.escalated then 1 else if i.origin = .pressure then 2 else 3
  ((c.callsOf i.number).map (fun x => x.grade)).foldl min base

/-- The grade of an incident set afresh, with the notice and the tiers where it changes (R80, R88). -/
def Ev.setGrade (e : Ev) (n : Nat) : Ev :=
  match e.incident? n with
  | none => e
  | some i =>
    let g := e.calls.gradeFor i
    if g = i.grade then e else ((e.modIncident n (fun x => { x with grade := g })).logIncident n .grade).markTiers

/-- Every held incident's grade set afresh: only those whose calls or mark changed take a new value (R76, step 4). -/
def Ev.setGrades (e : Ev) : Ev := (e.calls.incidents.map (fun i => i.number)).foldl (fun acc n => acc.setGrade n) e

/-! ## Opening incidents (R74, R78, R83) -/

/-- The next incident number: the last plus one, passing from 255 to 1, over the numbers held (R74). The fuel covers
every number. -/
def CallRegister.nextIncident (c : CallRegister) : Nat → Nat → Nat
  | 0, n => n
  | k + 1, n =>
    let n' := if n = 255 then 1 else n + 1
    if c.incidents.any (fun i => i.number == n') then c.nextIncident k n' else n'

/-- An incident slot is FREE (R73). -/
def CallRegister.hasSlot (c : CallRegister) : Bool := decide (c.incidents.length < Config.incidentRecords)

/-- An incident opened on one segment: its number, and the register with it (R74, R78, R83). Its grade is 2 for origin
PRESSURE; for origin CALLS the grade is set when its call has joined. -/
def Ev.openIncident (e : Ev) (origin : Origin) (seg : SegId) (openedAt : Stamp) : Ev :=
  let n := e.calls.nextIncident 255 e.calls.lastIncident
  let i : Incident :=
    { number := n, sequence := e.calls.openingSequence + 1, origin := origin, zone := e.table.segs[seg].zone,
      segments := [seg], grade := if origin = .pressure then 2 else 3, escalated := false, plan := none,
      state := .opened, openedAt := openedAt }
  ((e.modCalls (fun c => { c with
    incidents := c.incidents ++ [i], lastIncident := n, openingSequence := c.openingSequence + 1 })).logIncident n
      .opened).markTiers

/-- Some held call is UNGROUPED (R78). -/
def CallRegister.ungrouped (c : CallRegister) : Bool := c.calls.any (fun x => x.incident.isNone)

/-- The INCIDENT_TABLE_FULL alarm is cleared where no held call is UNGROUPED (R78). -/
def Ev.clearTableFull (e : Ev) : Ev := if e.calls.ungrouped then e else e.clear .incidentTableFull 0

/-! ## Grouping (R77) -/

/-- Some present valve joins a segment to a segment of a list (R77). -/
def Table.adjoins (t : Table) (seg : SegId) (segs : List SegId) : Bool :=
  t.valves.toList.any (fun v => v.present &&
    ((v.sideA == .seg seg && sideIn segs v.sideB) || (v.sideB == .seg seg && sideIn segs v.sideA)))

/-- The oldest incident the first test of R77 finds. -/
def CallRegister.firstTest (c : CallRegister) (seg : SegId) : Option Incident :=
  c.incidents.find? (fun i => i.segments.contains seg)

/-- An incident that the second test of R77 may extend by a segment. -/
def Table.mayExtend (t : Table) (seg : SegId) (i : Incident) : Bool :=
  (i.state == .opened || i.state == .isolating) && i.zone == t.segs[seg].zone &&
    decide (i.segments.length < Config.incidentSegments) && t.adjoins seg i.segments

/-- The oldest incident the second test of R77 finds. -/
def CallRegister.secondTest (c : CallRegister) (t : Table) (seg : SegId) : Option Incident :=
  c.incidents.find? (fun i => t.mayExtend seg i)

/-- A held call takes its incident number (R72, R77). -/
def Ev.joinCall (e : Ev) (ref : Word) (n : Nat) : Ev :=
  e.modCalls (fun c => { c with
    calls := c.calls.map (fun x => if x.ref == ref then { x with incident := some n } else x) })

/-- The segment appended to an incident (R77). -/
def Ev.growIncident (e : Ev) (i : Incident) (seg : SegId) : Ev :=
  ((e.modIncident i.number (fun x => { x with segments := x.segments ++ [seg] })).logIncident i.number .grown).markTiers

/-- A target change handed to the plan an incident holds (R88, R105, R106). -/
def Ev.handTarget (e : Ev) (n : Nat) : Ev :=
  match (e.incident? n).bind (fun i => i.plan) with
  | some (p, .held) => e.targetChange p
  | _ => e

/-- The target changes of this event delivered, after the grades are set (R76, steps 4 and 5; R88). Of several incidents grown
at one regrouping (R79) the one that grew first is delivered first (the model's choice, notes/assumptions/61.md). -/
def Ev.deliverTargets (e : Ev) : Ev :=
  (e.incidentLog.filter (fun c => c.cause == .grown)).foldl (fun acc c => acc.handTarget c.incident.number) e

/-- A call grouped by the three tests of R77; without a slot it stays UNGROUPED (R78). -/
def Ev.groupCall (e : Ev) (ref : Word) (seg : SegId) : Ev :=
  match e.calls.firstTest seg with
  | some i => (e.joinCall ref i.number).logIncident i.number .call
  | none =>
    match e.calls.secondTest e.table seg with
    | some i => ((e.joinCall ref i.number).growIncident i seg).logIncident i.number .call
    | none =>
      if e.calls.hasSlot then
        let e1 := e.openIncident .calls seg e.now
        e1.joinCall ref e1.calls.lastIncident
      else e

/-- The incident number a held call carries. -/
def CallRegister.incidentOf (c : CallRegister) (ref : Word) : Option Nat :=
  (c.calls.find? (fun x => x.ref == ref)).bind (fun x => x.incident)

/-- INCIDENT_TABLE_FULL raised where a call taken has stayed UNGROUPED (R78). -/
def Ev.raiseUngrouped (e : Ev) (ref : Word) : Ev :=
  match e.calls.incidentOf ref with
  | some _ => e
  | none => e.raise .incidentTableFull 0 1 noPlace

/-! ## Arrival lists and escalation (R81, R82) -/

/-- An arrival list after a call of its zone (R81). -/
def Ev.arrivalsAfter (e : Ev) (list : List Stamp) : List Stamp :=
  let kept := list.filter (fun t => decide (e.age t ≤ e.table.params.escalationWindow * 1000)) ++ [e.now]
  if kept.length > Config.arrivalStamps then kept.drop 1 else kept

/-- The arrival list of a zone updated (R81). -/
def Ev.addArrival (e : Ev) (zone : Byte) : Ev :=
  e.modCalls (fun c => { c with arrivals := upd c.arrivals zone.toFin (fun l => e.arrivalsAfter l) })

/-- The incidents of a zone that are not yet escalated. -/
def CallRegister.toEscalate (c : CallRegister) (zone : Byte) : List Nat :=
  (c.incidents.filter (fun i => i.zone == zone && !i.escalated)).map (fun i => i.number)

/-- Some held incident of a zone is escalated (R82). -/
def CallRegister.escalated (c : CallRegister) (zone : Byte) : Bool :=
  c.incidents.any (fun i => i.zone == zone && i.escalated)

/-- INCIDENT_ESCALATED is cleared where no held incident of the zone is escalated (R82, R87). -/
def Ev.clearEscalated (e : Ev) (zone : Byte) : Ev :=
  if e.calls.escalated zone then e else e.clear .incidentEscalated zone.toNat

/-- Escalation of a zone tested after its arrival list has changed (R82). -/
def Ev.testEscalation (e : Ev) (zone : Byte) : Ev :=
  if e.calls.arrivals[zone.toFin].length ≥ e.table.params.escalationCount then
    let e1 := (e.calls.toEscalate zone).foldl (fun acc n =>
      ((acc.modIncident n (fun x => { x with escalated := true })).logIncident n .escalated).markTiers) e
    (e1.raise .incidentEscalated zone.toNat 1 zone).clearEscalated zone
  else e

/-! ## CALL (R75, R76) -/

/-- The record of a call taken (R76, step 1). -/
def Ev.recordCall (e : Ev) (ref : Word) (seg : SegId) (grade : Nat) (place : CallPlace) : Ev :=
  e.modCalls (fun c => { c with
    arrivalSequence := c.arrivalSequence + 1
    calls := c.calls ++ [⟨ref, seg, grade, place, e.now, c.arrivalSequence + 1, .opened, none⟩] })

/-- What the OK reply to a CALL carries from offset 4 on: the result of R182, the incident number or 0 for UNGROUPED, and after
it the call reference that step 6 of R76 has it carry too. The place of the reference is DEDUCED (notes/assumptions/25.md). -/
def callReplyFields (ref : Word) (incident : Option Nat) : List Byte := u8 (incident.getD 0) ++ w32 ref

/-- The steps of a CALL that is taken (R76). -/
def Ev.takeCall (e : Ev) (q : Sender) (ref : Word) (seg : SegId) (grade : Nat) (place : CallPlace) : Ev :=
  let zone := e.table.segs[seg].zone
  let e1 := ((e.recordCall ref seg grade place).groupCall ref seg).raiseUngrouped ref
  let e2 := (((e1.addArrival zone).testEscalation zone).setGrades).deliverTargets
  e2.reply q .ok (callReplyFields ref (e2.calls.incidentOf ref))

/-- A request that is taken in OPERATING only (R14). -/
def inOperating (q : Sender) (act : Ev → Ev) (e : Ev) : Ev :=
  match e.mode with
  | .commissioning => e.refuse q .modeRefused
  | .operating => act e

/-- CALL (R75). -/
def callBlock (ref : Word) (segment grade place : Byte) (q : Sender) : Ev → Ev :=
  inOperating q (fun e =>
    match e.table.presentSeg segment, gradeOf grade, callPlaceOf place with
    | none, _, _ => e.refuse q .noSuchObject
    | some seg, some g, some pl =>
      if e.calls.calls.any (fun x => x.ref == ref) then e.refuse q .duplicate
      else if e.calls.calls.length < Config.callRecords then e.takeCall q ref seg g pl
      else (e.refuse q .tableFull).raiseOnly .callTableFull 0 1 noPlace
    | some _, _, _ => e.refuse q .stateRefused)

/-! ## CALL UPDATE (R85) -/

/-- A held call moved to a new state; an UNGROUPED call that is closed is freed (R85). -/
def Ev.updateCall (e : Ev) (x : Call) (st : CallState) : Ev :=
  if x.state = st then e
  else match x.incident, st with
    | none, .closed =>
      (e.modCalls (fun c => { c with calls := c.calls.filter (fun y => y.ref != x.ref) })).clearTableFull
    | none, _ => e.modCalls (fun c => { c with
        calls := c.calls.map (fun y => if y.ref == x.ref then { y with state := st } else y) })
    | some n, _ =>
      (e.modCalls (fun c => { c with
        calls := c.calls.map (fun y => if y.ref == x.ref then { y with state := st } else y) })).logIncident n .call

/-- CALL UPDATE (R85). -/
def callUpdateBlock (ref : Word) (state : Byte) (q : Sender) : Ev → Ev :=
  inOperating q (fun e =>
    match updateStateOf state with
    | none => e.refuse q .stateRefused
    | some st =>
      match e.calls.calls.find? (fun x => x.ref == ref) with
      | none => e.refuse q .noSuchObject
      | some x => if x.state = .closed then e.refuse q .stateRefused else (e.updateCall x st).ok q)

/-! ## MADE SAFE and CLOSE INCIDENT (R86, R87) -/

/-- MADE SAFE (R86). -/
def madeSafeBlock (incident : Byte) (q : Sender) : Ev → Ev :=
  inOperating q (fun e =>
    match e.incident? incident.toNat with
    | none => e.refuse q .noSuchObject
    | some i =>
      if i.state = .opened ∨ i.state = .isolating then (e.setIncidentState i.number .madeSafe).ok q
      else e.refuse q .stateRefused)

/-- The UNGROUPED calls grouped again, oldest first; INCIDENT_TABLE_FULL cleared when the last has been tried; then the grades
and deliveries of R76 (R79). -/
def Ev.regroup (e : Ev) : Ev :=
  ((e.calls.calls.filter (fun x => x.incident.isNone)).foldl (fun acc x => acc.groupCall x.ref x.segment)
    e).clearTableFull.setGrades.deliverTargets

/-- The close of an incident (R87). -/
def Ev.closeIncident (e : Ev) (i : Incident) : Ev :=
  let closed : Incident := { i with state := .closed }
  let shown := ({ e with incidentLog := e.incidentLog ++ [⟨closed, .closed⟩] } : Ev)
  let e1 := (shown.modCalls (fun c => { c with
    calls := c.calls.filter (fun x => x.incident != some i.number)
    incidents := c.incidents.filter (fun x => x.number != i.number) })).markTiers
  (e1.clearEscalated i.zone).regroup

/-- An incident's plan is none or has ended (R87, R92). -/
def Incident.planEnded (i : Incident) : Bool :=
  match i.plan with
  | some (_, .held) => false
  | _ => true

/-- CLOSE INCIDENT (R87): answered OK, and then the steps. That the reply stands ahead of the PLAN NOTICEs which the regrouping of
step 5 may bring is the model's choice (notes/assumptions/13.md). -/
def closeIncidentBlock (incident : Byte) (q : Sender) : Ev → Ev :=
  inOperating q (fun e =>
    match e.incident? incident.toNat with
    | none => e.refuse q .noSuchObject
    | some i => if i.planEnded then (e.ok q).closeIncident i else e.refuse q .stateRefused)

/-! ## Pressure falls (R83) -/

/-- A pressure fall handed over by the Pressure Monitor (R83). -/
def Ev.pressureFall (e : Ev) (seg : SegId) (stamp : Stamp) : Ev :=
  if e.calls.hasSlot then e.openIncident .pressure seg stamp
  else (e.raise .incidentTableFull 0 1 noPlace).clearTableFull

/-! ## Meanings -/

/-- The meaning of CALL. -/
def execCall (p : Port) (seq : Byte) (ref : Word) (segment grade place : Byte) (s : State) :
    Host.Outcome State Fault Refusal :=
  .next (request p seq 0x08 (callBlock ref segment grade place) s)

/-- The meaning of CALL_UPDATE. -/
def execCallUpdate (p : Port) (seq : Byte) (ref : Word) (state : Byte) (s : State) :
    Host.Outcome State Fault Refusal :=
  .next (request p seq 0x09 (callUpdateBlock ref state) s)

/-- The meaning of MADE_SAFE. -/
def execMadeSafe (p : Port) (seq incident : Byte) (s : State) : Host.Outcome State Fault Refusal :=
  .next (request p seq 0x0A (madeSafeBlock incident) s)

/-- The meaning of CLOSE_INCIDENT. -/
def execCloseIncident (p : Port) (seq incident : Byte) (s : State) : Host.Outcome State Fault Refusal :=
  .next (request p seq 0x26 (closeIncidentBlock incident) s)

end Sys2Proof.Machine
end

