-- ==== Sys2Proof/Machine/Publication.lean ====
section
/-! DEFINITION. The completion of a pass: a publication (R64, R65) or a hypothetical result (R68), and the taking of a
publication by a block (R65). -/

namespace Sys2Proof.Machine

/-- The segments a publication covers: present in the snapshot and at the completion (R64, step 2). -/
def Ev.published (e : Ev) (snap : Snapshot) : List SegId := snap.segs.filter (fun i => e.table.segs[i].present)

/-- A segment's live fields after a publication of a generation (R64, steps 2 and 3). -/
def SegLive.publish (l : SegLive) (st : Supply) (generation : Word) : SegLive :=
  ⟨st, if l.supply = st then l.changed else generation⟩

/-- The live fields of every segment after a publication. -/
def publishAll (segLive : Vector SegLive 256) (segs : List PublishedSeg) (generation : Word) : Vector SegLive 256 :=
  segs.foldl (fun acc x => upd acc x.seg (fun l => l.publish x.after generation)) segLive

/-- What a PUBLICATION carries (R65). -/
def Ev.publicationOf (e : Ev) (snap : Snapshot) : Publication :=
  let definite := snap.definite
  let possible := snap.possible
  { generation := nextSkipZero e.tracer.generation, stamp := snap.stamp, revision := snap.revision, order := snap.order,
    segs := (e.published snap).map (fun i => ⟨i, supplyFrom definite possible snap i, e.segLive[i].supply⟩) }

/-- The three deliveries of a publication, in the order of R65. -/
def deliveriesOf (pub : Publication) : List (Reactor × Publication) :=
  [(.suppression, pub), (.outages, pub), (.proving, pub)]

/-- A published pass completes: the publication (R64). -/
def Ev.publish (e : Ev) (pub : Publication) : Ev :=
  let e1 : Ev := { e with segLive := publishAll e.segLive pub.segs pub.generation, completed := some .published }
  e1.modTracer (fun t => { t with generation := pub.generation, deliveries := t.deliveries ++ deliveriesOf pub })

/-- PUBLICATION (R64): nothing happens unless a published pass runs. -/
def publicationBlock (e : Ev) : Ev :=
  match e.tracer.engine with
  | .publishing snap => e.publish (e.publicationOf snap)
  | _ => e

/-- HYPOTHETICAL_RESULT (R68, R96): nothing happens unless a hypothetical pass runs. -/
def hypotheticalBlock (e : Ev) : Ev :=
  match e.tracer.engine with
  | .hypothetical snap overrides =>
    ({ e with completed := some .hypothetical } : Ev).deliverResult (snap.override overrides)
  | _ => e

/-- A block takes its delivery of a publication, if it is the next that waits (R65). -/
def takeDelivery (r : Reactor) (act : Publication → Ev → Ev) (e : Ev) : Ev :=
  match e.tracer.deliveries with
  | (r', pub) :: rest => if r' = r then act pub (e.modTracer (fun t => { t with deliveries := rest })) else e
  | [] => e

/-- The meaning of PUBLICATION. -/
def execPublication (s : State) : Host.Outcome State Fault Refusal := .next (event publicationBlock s)

/-- The meaning of HYPOTHETICAL_RESULT. -/
def execHypotheticalResult (s : State) : Host.Outcome State Fault Refusal := .next (event hypotheticalBlock s)

end Sys2Proof.Machine
end

