-- ==== Sys2Proof/Machine/Proving.lean ====
section
/-! DEFINITION. The proving of plans: the decisive publication (R133, R134), readings and qualities (R135, R137), the
proof deadline (R136), CONFIRM (R138) and RESTORE (R139). -/

namespace Sys2Proof.Machine

/-- The region stations of a plan (R131). -/
def Ev.regionStations (e : Ev) (p : Plan) : List StationId :=
  idsWhere e.table.stations (fun s => s.present && sideIn p.segs s.location)

/-- The region stations that count for proof: those whose quality is GOOD (R131). -/
def Ev.counting (e : Ev) (p : Plan) : List StationId :=
  (e.regionStations p).filter (fun i => e.stationLive[i].quality == .good)

/-- Some segment of a plan's region is published LIVE or UNCERTAIN (R133, R134). -/
def Ev.gasInRegion (e : Ev) (p : Plan) : Bool := p.segs.any (fun s => !e.segLive[s].supply.cutOff)

/-- A plan becomes PROVEN on its pressures (R135). -/
def Ev.toProven (e : Ev) (n : Nat) : Ev :=
  ((e.modPlan n (fun p => { p with proofDeadline := none, confirmedBy := none })).setPlanState n .proven).planNotice n
    .proven

/-- A plan becomes UNPROVEN (R133, R137). -/
def Ev.toUnproven (e : Ev) (n : Nat) : Ev :=
  ((e.modPlan n (fun p => { p with proofDeadline := none })).setPlanState n .unproven).planNotice n .unproven

/-- A plan enters PROVING (R133). -/
def Ev.toProving (e : Ev) (n : Nat) : Ev :=
  ((e.modPlan n (fun p => { p with
    proofDeadline := some (e.after (e.table.params.provingWindow * 1000)) })).setPlanState n .proving).planNotice n .proving

/-- The plans in PROVING whose region holds a location. -/
def Ev.provingAt (e : Ev) (l : Side) : List Nat :=
  (e.planner.plans.filter (fun p => p.state == .proving && sideIn p.segs l)).map (fun p => p.number)

/-- A GOOD reading of a region station tests one plan (R135). -/
def Ev.testProof (e : Ev) (n : Nat) : Ev :=
  match e.plan? n with
  | none => e
  | some p =>
    if (e.counting p).all (fun i => decide (e.stationLive[i].pressure ≤ e.table.params.provingLevel)) then e.toProven n
    else e

/-- A GOOD reading of a station delivered to proving (R44, R135). -/
def Ev.proveReading (e : Ev) (i : StationId) : Ev :=
  (e.provingAt e.table.stations[i].location).foldl (fun acc n => acc.testProof n) e

/-- A change of quality tests one plan (R137). -/
def Ev.testCounting (e : Ev) (n : Nat) : Ev :=
  match e.plan? n with
  | none => e
  | some p => if (e.counting p).isEmpty then e.toUnproven n else e

/-- A change of a station's quality to STALE or FAILED delivered to proving (R44, R137). -/
def Ev.proveQuality (e : Ev) (i : StationId) : Ev :=
  (e.provingAt e.table.stations[i].location).foldl (fun acc n => acc.testCounting n) e

/-- A plan judged at its decisive publication (R133). -/
def Ev.judge (e : Ev) (p : Plan) : Ev :=
  let e1 := e.modPlan p.number (fun q => { q with awaiting := false, awaitedGeneration := none })
  if e1.gasInRegion p then e1.replanTrigger p.number
  else if (e1.counting p).isEmpty then e1.toUnproven p.number
  else e1.toProving p.number

/-- A plan whose isolation is in proof or proven (R134). -/
def PlanState.watched (st : PlanState) : Bool := st == .proving || st == .proven || st == .letBy || st == .unproven

/-- One plan at a publication (R133, R134). -/
def Ev.provePublication (e : Ev) (generation : Word) (n : Nat) : Ev :=
  match e.plan? n with
  | none => e
  | some p =>
    if p.awaiting && p.awaitedGeneration == some generation then e.judge p
    else if p.state.watched && e.gasInRegion p then e.replanTrigger n
    else e

/-- PUBLICATION_PROVING (R133, R134). -/
def provingBlock : Ev → Ev :=
  takeDelivery .proving (fun pub e =>
    (e.planner.plans.map (fun p => p.number)).foldl (fun acc n => acc.provePublication pub.generation n) e)

/-- PROOF_DEADLINE_EXPIRY (R136). -/
def proofBlock (n : Nat) (e : Ev) : Ev :=
  match e.plan? n with
  | none => e
  | some p =>
    if expired e.now p.proofDeadline ∧ p.state = .proving then
      ((e.modPlan n (fun q => { q with proofDeadline := none })).setPlanState n .letBy).planNotice n .letBy
    else e

/-- A request that names a held plan, taken in OPERATING (R100, R104, R107, R138, R139). -/
def onPlan (plan : Half) (q : Sender) (act : Plan → Ev → Ev) : Ev → Ev :=
  inOperating q (fun e =>
    match e.plan? plan.toNat with
    | none => e.refuse q .noSuchObject
    | some p => act p e)

/-- CONFIRM (R138). -/
def confirmBlock (plan : Half) (q : Sender) : Ev → Ev :=
  onPlan plan q (fun p e =>
    if p.state = .letBy ∨ p.state = .unproven then
      (((e.ok q).setPlanState p.number .proven).modPlan p.number (fun r => { r with
        confirmedBy := some q.port })).planNotice p.number .confirmed
    else e.refuse q .stateRefused)

/-- The state of a plan's incident is MADE_SAFE (R139). -/
def Ev.incidentSafe (e : Ev) (n : Nat) : Bool :=
  match e.incident? n with
  | none => false
  | some i => i.state == .madeSafe

/-- RESTORE (R139). -/
def restoreBlock (plan : Half) (q : Sender) : Ev → Ev :=
  onPlan plan q (fun p e =>
    if (p.state = .proven ∨ p.state = .letBy ∨ p.state = .unproven) ∧ e.incidentSafe p.incident = true then
      (e.ok q).enterRestoring p
    else e.refuse q .stateRefused)

/-- The meaning of PUBLICATION_PROVING. -/
def execPublicationProving (s : State) : Host.Outcome State Fault Refusal := .next (event provingBlock s)

/-- The meaning of PROOF_DEADLINE_EXPIRY. -/
def execProofDeadlineExpiry (plan : Half) (s : State) : Host.Outcome State Fault Refusal :=
  .next (event (proofBlock plan.toNat) s)

/-- The meaning of CONFIRM. -/
def execConfirm (p : Port) (seq : Byte) (plan : Half) (s : State) : Host.Outcome State Fault Refusal :=
  .next (request p seq 0x24 (confirmBlock plan) s)

/-- The meaning of RESTORE. -/
def execRestore (p : Port) (seq : Byte) (plan : Half) (s : State) : Host.Outcome State Fault Refusal :=
  .next (request p seq 0x25 (restoreBlock plan) s)

end Sys2Proof.Machine
end

