-- ==== Sys2Proof/Machine/PlanRequests.lean ====
section
/-! DEFINITION. The consoles' requests on plans: PLAN (R92), AUTHORISE and its window (R100 to R103), CANCEL (R104) and
WIDEN (R107). -/

namespace Sys2Proof.Machine

/-! ## PLAN -/

/-- A number is named in the cause of an outage record that is not FREE (R91). -/
def OutageRegister.names (o : OutageRegister) (n : Nat) : Bool :=
  o.records.toList.any (fun r => r.any (fun x => x.cause == .plan n))

/-- A plan number is taken: held in the table or named by an outage record (R91). -/
def Ev.planTaken (e : Ev) (n : Nat) : Bool := (e.plan? n).isSome || e.outages.names n

/-- The next plan number: the last plus one, passing from 65,535 to 1, over the numbers taken (R91). At most 40 numbers are
taken, so 41 tries find a free one. -/
def Ev.nextPlan (e : Ev) : Nat → Nat → Nat
  | 0, n => n
  | k + 1, n =>
    let n' := if n = 65535 then 1 else n + 1
    if e.planTaken n' then e.nextPlan k n' else n'

/-- A plan as it is created (R92, R131). Its basis revision, customers affected and rings used are 0 until a computation ends
(DESIGN CHOICE, notes/assumptions/52.md). -/
def Plan.new (n incident : Nat) : Plan where
  number := n
  incident := incident
  state := .computing
  committed := false
  holder := none
  frozen := false
  authSequence := 0
  basis := 0
  target := []
  region := []
  ringsUsed := 0
  close := []
  holding := []
  shared := []
  collateral := []
  customers := 0
  authCustomers := none
  authorisations := []
  window := none
  reason := .none
  widen := none
  rerun := false
  done := []
  incomplete := []
  awaiting := false
  closureStamp := none
  awaitedGeneration := none
  proofDeadline := none
  confirmedBy := none
  recloseWaiting := []

/-- A plan created for an incident (R92): the INCIDENT NOTICE of step 2 goes out ahead of the reply and the PLAN NOTICE of
step 4. R92 does not say which FREE slot the plan takes: it goes to the end of the plan table, which so stands in order of
creation (the model's choice, notes/assumptions/71.md). -/
def Ev.createPlan (e : Ev) (q : Sender) (i : Incident) : Ev :=
  let n := e.nextPlan 41 e.planner.lastPlan
  let e1 := e.modPlanner (fun pl => { pl with plans := pl.plans ++ [Plan.new n i.number], lastPlan := n })
  let e2 := (e1.modIncident i.number (fun x => { x with plan := some (n, .held) })).logIncident i.number .plan
  ((e2.incidentNoticesNow.enqueuePlan n).reply q .ok (u16 n)).planNotice n .created

/-- PLAN (R92). -/
def planBlock (incident : Byte) (q : Sender) : Ev → Ev :=
  inOperating q (fun e =>
    match e.incident? incident.toNat with
    | none => e.refuse q .noSuchObject
    | some i =>
      if (i.state = .opened ∨ i.state = .madeSafe) ∧ i.planEnded = true then
        if e.planner.plans.length < Config.planSlots then e.createPlan q i else e.refuse q .tableFull
      else e.refuse q .stateRefused)

/-! ## AUTHORISE -/

/-- The stage fits the plan's state (R100, step 5). -/
def stageFits (st : Stage) (p : PlanState) : Bool :=
  match st with
  | .first => p == .proposed
  | .second => p == .authorising

/-- The effect of an AUTHORISE that finds the plan stale (R100, step 7). -/
def Ev.staleAuthorise (e : Ev) (q : Sender) (p : Plan) : Ev :=
  let e1 := e.refuse q .planStale
  if p.committed then (e1.enterReplanning p.number).planNotice p.number .stale else e1.backToComputing p.number

/-- A first authorisation of two recorded (R101). -/
def Ev.firstAuthorise (e : Ev) (q : Sender) (p : Plan) : Ev :=
  let e1 := e.modPlan p.number (fun r => { r with
    authorisations := r.authorisations ++ [q.port]
    window := some (e.after (e.table.params.authWindow * 1000)) })
  ((e1.setPlanState p.number .authorising).ok q).planNotice p.number .authorising

/-- A completing authorisation (R103). -/
def Ev.completeAuthorise (e : Ev) (q : Sender) (p : Plan) : Ev :=
  let e1 := (e.setHolder p.number (some q.port) false).clearAuthorisations p.number
  ((e1.commitPlan p.number).ok q).planNotice p.number .authorised

/-- AUTHORISE (R100, R101). -/
def authoriseBlock (plan : Half) (stage : Byte) (q : Sender) : Ev → Ev :=
  onPlan plan q (fun p e =>
    match stageOf stage with
    | none => e.refuse q .stateRefused
    | some st =>
      if stageFits st p.state = false then e.refuse q .stateRefused
      else if p.authorisations.contains q.port then e.refuse q .duplicate
      else if p.basis ≠ e.revision then e.staleAuthorise q p
      else if st = .first ∧ e.needed p = 2 then e.firstAuthorise q p
      else e.completeAuthorise q p)

/-- WINDOW_DEADLINE_EXPIRY (R102): nothing happens unless the deadline runs and has been reached. -/
def windowBlock (n : Nat) (e : Ev) : Ev :=
  match e.plan? n with
  | none => e
  | some p =>
    if expired e.now p.window ∧ p.state = .authorising then
      ((e.clearAuthorisations n).setPlanState n .proposed).planNotice n .lapsed
    else e

/-! ## CANCEL and WIDEN -/

/-- A plan never committed is cancelled (R104). -/
def Ev.cancelFresh (e : Ev) (p : Plan) : Ev :=
  let n := p.number
  let e1 := (e.leaveQueue n).modPlan n (fun r => { r with window := none })
  (((e1.setPlanState n .cancelled).markIncidentPlan p.incident n .cancelled).planNotice n .cancelled).freePlan n

/-- CANCEL (R104): a committed plan is restored instead. -/
def cancelBlock (plan : Half) (q : Sender) : Ev → Ev :=
  onPlan plan q (fun p e =>
    if p.state = .restoring then e.refuse q .stateRefused
    else if p.committed then (e.ok q).enterRestoring p
    else (e.ok q).cancelFresh p)

/-- WIDEN (R107). -/
def widenBlock (plan : Half) (q : Sender) : Ev → Ev :=
  onPlan plan q (fun p e =>
    if p.state = .letBy then
      ((e.ok q).modPlan p.number (fun r => { r with
        widen := some (r.close.map (fun c => c.valve) ++ r.holding) })).replanTrigger p.number
    else e.refuse q .stateRefused)

/-! ## Meanings -/

/-- The meaning of PLAN. -/
def execPlan (p : Port) (seq incident : Byte) (s : State) : Host.Outcome State Fault Refusal :=
  .next (request p seq 0x20 (planBlock incident) s)

/-- The meaning of AUTHORISE. -/
def execAuthorise (p : Port) (seq : Byte) (plan : Half) (stage : Byte) (s : State) :
    Host.Outcome State Fault Refusal :=
  .next (request p seq 0x21 (authoriseBlock plan stage) s)

/-- The meaning of WINDOW_DEADLINE_EXPIRY. -/
def execWindowDeadlineExpiry (plan : Half) (s : State) : Host.Outcome State Fault Refusal :=
  .next (event (windowBlock plan.toNat) s)

/-- The meaning of CANCEL. -/
def execCancel (p : Port) (seq : Byte) (plan : Half) (s : State) : Host.Outcome State Fault Refusal :=
  .next (request p seq 0x22 (cancelBlock plan) s)

/-- The meaning of WIDEN. -/
def execWiden (p : Port) (seq : Byte) (plan : Half) (s : State) : Host.Outcome State Fault Refusal :=
  .next (request p seq 0x23 (widenBlock plan) s)

end Sys2Proof.Machine
end

