-- ==== Sys2Proof/Machine/Pressure.lean ====
section
/-! DEFINITION. The Pressure Monitor: the arithmetic of a reading (R25 to R28, R30), its effects (R29, R31, R37, R40 to
R44), doubtful readings and staleness (R32 to R34), limits (R35, R36), COLLECT (R38) and suppression (R39). -/

namespace Sys2Proof.Machine

/-! ## The arithmetic -/

/-- Stage 1: a raw count converted to pascals, with its clamp mark (R25). -/
def convert (r : StationStatic) (raw : Nat) : Nat × Clamp :=
  if raw < r.zero then (0, .under)
  else if raw ≤ r.zero + r.span then (((raw - r.zero) * r.fullScale + r.span / 2) / r.span, .none)
  else (r.fullScale, .over)

/-- A distance divided by 2^k, halves away from zero; the whole distance where k is 0 (R26). -/
def filterStep (k d : Nat) : Nat := if k = 0 then d else (d + 2 ^ (k - 1)) >>> k

/-- Stage 2: the filtered pressure moved toward `p` (R26). -/
def filtered (k old p : Nat) (restart : Bool) : Nat :=
  if restart then p
  else if old ≤ p then old + filterStep k (p - old)
  else old - filterStep k (old - p)

/-- The first row of the table of R27 that applies. -/
inductive RateCase where
  | restart | long | short | normal
deriving DecidableEq, Repr

/-- The row of R27 for a reading, from the time since the previous GOOD reading. -/
def rateCase (restart : Bool) (dt : Nat) : RateCase :=
  if restart then .restart
  else if 600000 < dt then .long
  else if dt < 500 then .short
  else .normal

/-- A rate saturated to 1,000,000 Pa per minute either way (R27). -/
def saturate (r : Int) : Int := if r < -1000000 then -1000000 else if 1000000 < r then 1000000 else r

/-- Stage 3: the rate of change (R27). -/
def rateAfter (c : RateCase) (kept : Int) (f fPrev dt : Nat) : Int :=
  match c with
  | .restart | .long => 0
  | .short => kept
  | .normal => saturate (Int.tdiv (((f : Int) - (fPrev : Int)) * 60000) (dt : Int))

/-- Stage 5: the fall count (R27, R30). -/
def fallAfter (c : RateCase) (kept : Nat) (rate : Int) (fall : Nat) : Nat :=
  match c with
  | .restart | .long => 0
  | .short => kept
  | .normal => if rate ≤ -(fall : Int) then satInc 2 kept else 0

/-! ## Bands (R28) -/

/-- The band of a code. -/
def bandOf (k : Fin 5) : Band :=
  match k with
  | 0 => .lolo | 1 => .lo | 2 => .normal | 3 => .hi | 4 => .hihi

/-- The severity of a band (R28). -/
def Band.severity : Band → Nat
  | .lolo => 2 | .lo => 1 | .normal => 0 | .hi => 1 | .hihi => 2

/-- The rows of the forced state that apply (R28): one, where the limits are in order. -/
def forcedRows (l : Limits) (f : Nat) : List Band :=
  (if f ≤ l.ll then [.lolo] else []) ++ (if l.ll < f ∧ f ≤ l.l then [.lo] else []) ++
    (if l.l < f ∧ f < l.h then [.normal] else []) ++ (if l.h ≤ f ∧ f < l.hh then [.hi] else []) ++
    (if l.hh ≤ f then [.hihi] else [])

/-- The rows of the retained state that apply (R28): one, where the limits are in order. -/
def retainedRows (current : Band) (l : Limits) (f : Nat) : List Band :=
  match current with
  | .lolo =>
    (if f ≤ l.ll + l.deadband then [.lolo] else []) ++
      (if l.ll + l.deadband < f ∧ f ≤ l.l + l.deadband then [.lo] else []) ++
      (if l.l + l.deadband < f then [.normal] else [])
  | .lo => if f ≤ l.l + l.deadband then [.lo] else [.normal]
  | .normal => [.normal]
  | .hi => if l.h ≤ f + l.deadband then [.hi] else [.normal]
  | .hihi =>
    (if l.hh ≤ f + l.deadband then [.hihi] else []) ++
      (if l.h ≤ f + l.deadband ∧ f + l.deadband < l.hh then [.hi] else []) ++
      (if f + l.deadband < l.h then [.normal] else [])

/-- The one row that applies, or the free value where the table gives none or several. -/
def onlyRow (rows : List Band) (free : Band) : Band :=
  match rows with
  | [b] => b
  | _ => free

/-- The more severe of the two candidates (R28). Two different candidates of one severity arise only where the limits are
not in order, and the rule then settles nothing. -/
def moreSevere (forced retained free : Band) : Band :=
  if forced = retained then forced
  else if retained.severity < forced.severity then forced
  else if forced.severity < retained.severity then retained
  else free

/-- Stage 4: the new band state (R28). `order` names the event for the free values. -/
def bandAfter (current : Band) (l : Limits) (f order : Nat) : Band :=
  moreSevere (onlyRow (forcedRows l f) (bandOf (Config.openBand order 0)))
    (onlyRow (retainedRows current l f) (bandOf (Config.openBand order 1))) (bandOf (Config.openBand order 2))

/-- The priority of a band (R29). -/
def Band.priority (b : Band) : Nat := if b.severity = 2 then 1 else 2

/-- A change of band that raises or re-raises PRESSURE_BAND: to a worse band or to the other side (R29). -/
def bandRaises (old new : Band) : Bool :=
  old != new && new != .normal && !(old == .lolo && new == .lo) && !(old == .hihi && new == .hi)

/-- A transition into LOLO or HIHI (R37). -/
def bandExtreme (old new : Band) : Bool := old != new && (new == .lolo || new == .hihi)

/-! ## A GOOD reading (R24) -/

/-- The excursion capture filled, or its further-count moved (R37). -/
def captureAfter (c : Option Capture) (b : Band) (f : Nat) (rate : Int) (now : Stamp) : Capture :=
  match c with
  | none => ⟨b, f, rate, now, 0⟩
  | some x => { x with further := satInc 255 x.further }

/-- What a GOOD reading makes of a station's live state in stages 1 to 5 and with its limits (R25 to R28, R30, R36, R37).
The quality, the staleness deadline and the suppressed mark are set beside it. -/
def StationLive.measure (l : StationLive) (r : StationStatic) (raw : Nat) (now : Stamp) (order : Nat) : StationLive :=
  let restart := l.quality != .good
  let p := convert r raw
  let f := filtered r.shift l.pressure p.1 restart
  let dt := (now - l.tPrev).toNat
  let c := rateCase restart dt
  let rate := rateAfter c l.rate f l.pressure dt
  let limits := l.waiting.getD l.active
  let band := bandAfter l.band limits f order
  { l with
    quality := .good
    converted := some ⟨p.1, p.2, .good⟩
    pressure := f
    tPrev := now
    rate := rate
    fallCount := fallAfter c l.fallCount rate limits.fall
    band := band
    active := limits
    waiting := none
    capture := if bandExtreme l.band band then some (captureAfter l.capture band f rate now) else l.capture }

/-- A segment station's segment is published LIVE or UNCERTAIN; a feed station passes (R30, R40). An absent segment, which
COMMISSIONING allows and no publication covers, counts by the supply state it still holds (DESIGN CHOICE,
notes/assumptions/48.md). -/
def Ev.locationLive (e : Ev) (l : Side) : Bool :=
  match l with
  | .seg s => !e.segLive[s].supply.cutOff
  | .feed _ => true

/-- PRESSURE_BAND after stage 4 (R29, R40). `old` is the station's state before the reading, `new` after stage 5. -/
def Ev.bandEffects (e : Ev) (i : StationId) (old new : StationLive) : Ev :=
  if old.suppressed then
    if e.locationLive e.table.stations[i].location then
      let e1 := e.modStation i (fun l => { l with suppressed := false })
      if new.band = .normal then e1
      else e1.raise .pressureBand i.val new.band.priority (stationPlace e1.table i)
    else e
  else if old.band = new.band then e
  else if new.band = .normal then e.clear .pressureBand i.val
  else if bandRaises old.band new.band then
    e.raise .pressureBand i.val new.band.priority (stationPlace e.table i)
  else e

/-- A segment lies in the list of some held incident (R31). -/
def Ev.inIncident (e : Ev) (s : SegId) : Bool := e.calls.incidents.any (fun i => i.segments.contains s)

/-- A pressure fall handed to the Call Register where R31 lets it. -/
def Ev.handFall (e : Ev) (l : Side) : Ev :=
  match l with
  | .feed _ => e
  | .seg s =>
    if e.mode = .operating ∧ e.segLive[s].supply.cutOff = false ∧ e.inIncident s = false then e.pressureFall s e.now
    else e

/-- PRESSURE_FALL and the pressure fall as the fall count moves (R30, R31). -/
def Ev.fallEffects (e : Ev) (i : StationId) (old new : Nat) : Ev :=
  let l := e.table.stations[i].location
  if old ≠ 0 ∧ new = 0 then e.clear .pressureFall i.val
  else if old = 1 ∧ new = 2 then
    (if e.locationLive l then e.raise .pressureFall i.val 2 (stationPlace e.table i) else e).handFall l
  else e

/-- The feed state a GOOD reading gives (R41). -/
def feedAfter (r : FeedStatic) (f : Nat) (before : FeedState) : FeedState :=
  if f < r.minimum then .failed
  else if f < r.minimum + r.deadband then (if before = .doubtful then .accepted else before)
  else .accepted

/-- The feed state evaluated at a GOOD reading of its outlet station (R41). An absent feed takes no part in a reading
(R1). -/
def Ev.evalFeed (e : Ev) (l : Side) (f : Nat) : Ev :=
  match l with
  | .seg _ => e
  | .feed k => if e.table.feeds[k].present then e.setFeed k (feedAfter e.table.feeds[k] f e.feedState[k]) else e

/-- STATION_NO_DATA is cleared on a restart from STALE or FAILED (R24, step 1). -/
def Ev.clearNoData (e : Ev) (i : StationId) (q : Quality) : Ev :=
  if q = .stale ∨ q = .failed then e.clear .stationNoData i.val else e

/-- The clearing of the fall count by R27 comes at stage 3, before the band; any other change comes at stage 5. -/
def earlyClear (old : StationLive) (now : Stamp) : Bool :=
  match rateCase (old.quality != .good) (now - old.tPrev).toNat with
  | .restart | .long => true
  | _ => false

/-- A GOOD reading (R24). -/
def Ev.goodReading (e : Ev) (i : StationId) (raw : Nat) : Ev :=
  let old := e.stationLive[i]
  let new := old.measure e.table.stations[i] raw e.now e.events
  let e1 := ((e.clearNoData i old.quality).modStation i (fun _ => new)).armStaleness i
  let e2 := if earlyClear old e.now then
      (e1.fallEffects i old.fallCount new.fallCount).bandEffects i old new
    else (e1.bandEffects i old new).fallEffects i old.fallCount new.fallCount
  (e2.evalFeed e.table.stations[i].location new.pressure).proveReading i

/-! ## Doubtful readings and staleness -/

/-- A SUSPECT reading: stage 1 alone (R32). -/
def Ev.suspectReading (e : Ev) (i : StationId) (raw : Nat) : Ev :=
  let p := convert e.table.stations[i] raw
  e.modStation i (fun l => { l with converted := some ⟨p.1, p.2, .suspect⟩ })

/-- A station loses its data: the quality changes, STATION_NO_DATA is raised, the deadline is gone, its feed is DOUBTFUL
and proving is told (R33, R34). A deadline that has expired reads as none (DESIGN CHOICE, notes/assumptions/50.md). -/
def Ev.loseData (e : Ev) (i : StationId) (q : Quality) : Ev :=
  let e1 := (e.modStation i (fun l => { l with quality := q, staleness := none })).raise .stationNoData i.val 3
    (stationPlace e.table i)
  (e1.doubtFeed e.table.stations[i].location).proveQuality i

/-- A FAILED reading (R33). -/
def Ev.failedReading (e : Ev) (i : StationId) : Ev :=
  if e.stationLive[i].quality = .failed then e else e.loseData i .failed

/-- READING (R23). -/
def readingBlock (station : Byte) (raw : Half) (quality : Byte) (q : Sender) (e : Ev) : Ev :=
  match e.table.presentStation station with
  | none => e.refuse q .noSuchObject
  | some i =>
    match readingQualityOf quality with
    | .good => (e.ok q).goodReading i raw.toNat
    | .suspect => (e.ok q).suspectReading i raw.toNat
    | .failed => (e.ok q).failedReading i

/-- STALENESS_DEADLINE_EXPIRY (R34): nothing happens unless the deadline runs and has been reached. -/
def stalenessBlock (i : StationId) (e : Ev) : Ev :=
  if expired e.now e.stationLive[i].staleness then
    match e.stationLive[i].quality with
    | .noData | .good => e.loseData i .stale
    | .stale | .failed => e.modStation i (fun l => { l with staleness := none })
  else e

/-! ## LIMITS WRITE and COLLECT -/

/-- LIMITS WRITE (R35). -/
def limitsWriteBlock (station : Byte) (l : Limits) (q : Sender) (e : Ev) : Ev :=
  match e.table.presentStation station with
  | none => e.refuse q .noSuchObject
  | some i =>
    if limitsValid l then (e.modStation i (fun x => { x with waiting := some l })).ok q
    else e.refuse q .limitsInvalid

/-- The result of a COLLECT: the flags byte and the capture, zeros where it is empty (R182, R179). -/
def captureBytes (c : Option Capture) : List Byte :=
  match c with
  | none => u8 0 ++ u8 0 ++ u32 0 ++ u32 0 ++ u32 0 ++ u8 0
  | some x => u8 1 ++ u8 x.band.code ++ u32 x.pressure ++ i32 x.rate ++ w32 x.stamp ++ u8 x.further

/-- COLLECT (R38). -/
def collectBlock (station : Byte) (q : Sender) (e : Ev) : Ev :=
  match e.table.presentStation station with
  | none => e.refuse q .noSuchObject
  | some i =>
    (e.modStation i (fun l => { l with capture := none })).reply q .ok (captureBytes e.stationLive[i].capture)

/-! ## Suppression (R39) -/

/-- A present segment station whose present segment is published ISOLATED or DEAD, not yet suppressed (R39). -/
def Ev.toSuppress (e : Ev) (i : StationId) : Bool :=
  e.table.stations[i].present && !e.stationLive[i].suppressed &&
    (match e.table.stations[i].location with
    | .seg s => e.table.segs[s].present && e.segLive[s].supply.cutOff
    | .feed _ => false)

/-- A station suppressed: its PRESSURE_BAND record is withdrawn (R39). -/
def Ev.suppress (e : Ev) (i : StationId) : Ev :=
  (e.modStation i (fun l => { l with suppressed := true })).withdrawAlarm .pressureBand i.val

/-- PUBLICATION_SUPPRESSION (R39): the stations in rising number (DESIGN CHOICE, notes/assumptions/51.md). -/
def suppressionBlock : Ev → Ev :=
  takeDelivery .suppression (fun _ e =>
    ((idsWhere e.table.stations (fun s => s.present)).filter (fun i => e.toSuppress i)).foldl
      (fun acc i => acc.suppress i) e)

/-! ## Meanings -/

/-- The meaning of READING. -/
def execReading (p : Port) (seq station : Byte) (raw : Half) (quality : Byte) (s : State) :
    Host.Outcome State Fault Refusal :=
  .next (request p seq 0x01 (readingBlock station raw quality) s)

/-- The meaning of STALENESS_DEADLINE_EXPIRY. -/
def execStalenessDeadlineExpiry (station : StationId) (s : State) : Host.Outcome State Fault Refusal :=
  .next (event (stalenessBlock station) s)

/-- The meaning of LIMITS_WRITE. -/
def execLimitsWrite (p : Port) (seq station : Byte) (ll l h hh deadband fall : Word) (s : State) :
    Host.Outcome State Fault Refusal :=
  .next (request p seq 0x19
    (limitsWriteBlock station ⟨ll.toNat, l.toNat, h.toNat, hh.toNat, deadband.toNat, fall.toNat⟩) s)

/-- The meaning of COLLECT. -/
def execCollect (p : Port) (seq station : Byte) (s : State) : Host.Outcome State Fault Refusal :=
  .next (request p seq 0x1A (collectBlock station) s)

/-- The meaning of PUBLICATION_SUPPRESSION. -/
def execPublicationSuppression (s : State) : Host.Outcome State Fault Refusal := .next (event suppressionBlock s)

end Sys2Proof.Machine
end

