-- ==== Sys2Proof/Machine/Outages.lean ====
section
/-! DEFINITION. The Outage Register: a publication (R147 to R150), the cause notes it settles (R146), relight reports
(R151), CLOSE OUTAGE (R152), the LARGE_OUTAGE alarm (R153) and the OUTAGE NOTICE (R154, R183). -/

namespace Sys2Proof.Machine

/-! ## Sets and sums -/

/-- The customers awaiting relight of a record (R145). -/
def Outage.awaiting (o : Outage) : Nat := (o.relight.map (fun r => r.awaiting)).foldl (· + ·) 0

/-- Customers off worked out afresh (R145). -/
def Outage.recount (t : Table) (o : Outage) : Outage := { o with customersOff := customersOf t o.off }

/-- Relight entries in segment-number order. -/
def sortRelight (rs : List RelightEntry) : List RelightEntry := sortBy (fun a b => decide (a.seg.val < b.seg.val)) rs

/-- A record with its sets dropped, as a freeing leaves it for its notice (R150). -/
def Outage.emptied (o : Outage) : Outage := { o with off := [], relight := [], customersOff := 0 }

/-- The work of one publication: the records so far, and what has happened to each for its notice (R154). -/
structure OutageWork where
  records : Vector (Option Outage) 32
  log : List (OutageId × OutageNoticeCause)

/-- A record of the work set, with a cause for its notice. -/
def OutageWork.put (w : OutageWork) (i : OutageId) (o : Option Outage) (c : OutageNoticeCause) : OutageWork :=
  ⟨upd w.records i (fun _ => o), w.log ++ [(i, c)]⟩

/-! ## R147: segments that no longer belong -/

/-- What becomes of a segment of an off set (R147). -/
inductive OffFate where
  | drops | returns | releases | stays
deriving DecidableEq, Repr

/-- A held committed plan has a segment in its region or collateral list (R147). -/
def Ev.accounts (e : Ev) (n : Nat) (s : SegId) : Bool :=
  match e.plan? n with
  | none => false
  | some p => p.committed && (p.segs.contains s || p.collateral.contains s)

/-- The fate of a segment of a record's off set. An absent segment, or one with no customers, enters no relight set
whatever is published of it. -/
def Ev.offFate (e : Ev) (o : Outage) (s : SegId) : OffFate :=
  if e.table.segs[s].present = false ∨ e.table.segs[s].customers = 0 then .drops
  else if e.segLive[s].supply.cutOff = false then .returns
  else match o.cause with
    | .plan n => if e.accounts n s then .stays else .releases
    | _ => .stays

/-- The segments of an off set with one fate. -/
def Ev.offWith (e : Ev) (o : Outage) (f : OffFate) : List SegId := o.off.filter (fun s => e.offFate o s == f)

/-- A record after R147. -/
def Ev.cleanOutage (e : Ev) (o : Outage) : Outage :=
  let back := (e.offWith o .returns).map (fun s => (⟨s, e.table.segs[s].customers⟩ : RelightEntry))
  ({ o with
    off := e.offWith o .stays
    relight := sortRelight (o.relight.filter (fun r => e.table.segs[r.seg].present) ++ back) } : Outage).recount e.table

/-- The causes R147 gives the notice of a record. -/
def Ev.cleanCauses (e : Ev) (i : OutageId) (o : Outage) : List (OutageId × OutageNoticeCause) :=
  (if (e.offWith o .returns).isEmpty then [] else [(i, .returned)]) ++
    (if (e.offWith o .releases).isEmpty then [] else [(i, .released)])

/-- Every held record after R147. -/
def Ev.cleanAll (e : Ev) : OutageWork where
  records := mapTable (fun _ r => r.map (fun o => e.cleanOutage o)) e.outages.records
  log := (idsWhere e.outages.records (fun r => r.isSome)).flatMap (fun i =>
    match e.outages.records[i] with
    | none => []
    | some o => e.cleanCauses i o)

/-! ## R148: segments placed -/

/-- A segment stands in the off set of some record. -/
def OutageWork.holds (w : OutageWork) (s : SegId) : Bool :=
  w.records.toList.any (fun r => r.any (fun o => o.off.contains s))

/-- The segments to place, in segment-number order (R148). -/
def Ev.toPlace (e : Ev) (w : OutageWork) : List SegId :=
  (idsWhere e.table.segs (fun s => s.present && decide (0 < s.customers))).filter (fun i =>
    e.segLive[i].supply.cutOff && !w.holds i)

/-- The committed plans, the lowest authorisation sequence first (R148). -/
def Ev.committedInOrder (e : Ev) : List Plan := e.plansInOrder.filter Plan.isCommitted

/-- The plan whose group a segment joins, none for the remainder group (R148). -/
def Ev.groupOf (e : Ev) (s : SegId) : Option Nat :=
  match e.committedInOrder.find? (fun p => p.segs.contains s) with
  | some p => some p.number
  | none => (e.committedInOrder.find? (fun p => p.collateral.contains s)).map (fun p => p.number)

/-- A cause note is counted at a publication: its first event is reflected in the snapshot (R65, R146). -/
def noteCounted (n : Option CauseNote) (order : Nat) : Bool :=
  match n with
  | none => false
  | some c => decide (c.firstOrder ≤ order)

/-- The cause of a record opened for a group (R149). -/
def Ev.groupCause (e : Ev) (order : Nat) (g : Option Nat) : OutageCause :=
  match g with
  | some n => .plan n
  | none =>
    if noteCounted e.outages.feedNote order then .feedFailure
    else if noteCounted e.outages.movementNote order then .valveMovement
    else .unknown

/-- The record of cause PLAN n that is not CLOSED (R148). -/
def OutageWork.planRecord (w : OutageWork) (g : Option Nat) : Option OutageId :=
  g.bind (fun n => (idsWhere w.records (fun r => r.any (fun o => o.cause == .plan n && o.state != .closed))).head?)

/-- Segments added to an off set. -/
def Outage.addOff (t : Table) (o : Outage) (segs : List SegId) : Outage :=
  ({ o with off := sortIds (dedup [] (o.off ++ segs)) } : Outage).recount t

/-- Segments that enter an off set leave every relight set (R148). -/
def OutageWork.leaveRelight (w : OutageWork) (segs : List SegId) : OutageWork :=
  { w with records := mapTable (fun _ r => r.map (fun o =>
      { o with relight := o.relight.filter (fun x => !segs.contains x.seg) })) w.records }

/-- The place of a group: the zone code of its lowest-numbered segment (R149). -/
def placeOf (t : Table) (segs : List SegId) : Byte :=
  match segs with
  | [] => noPlace
  | s :: _ => t.segs[s].zone

/-- A record as it opens (R149). -/
def openOutage (t : Table) (cause : OutageCause) (segs : List SegId) (stamp : Stamp) (merged : Bool) : Outage :=
  { cause := cause, place := placeOf t segs, off := segs, relight := [], customersOff := customersOf t segs, relit := 0,
    startStamp := stamp, endStamp := none, merged := merged, state := .active }

/-- A group put into the overflow record O31 (R149). -/
def OutageWork.overflow (w : OutageWork) (t : Table) (fresh : Outage) (segs : List SegId) : OutageWork :=
  match w.records[(31 : OutageId)] with
  | none => w.put 31 (some fresh) .opened
  | some o =>
    if o.state = .closed then (w.put 31 none .freed).put 31 (some fresh) .opened
    else w.put 31 (some { o.addOff t segs with merged := true, state := .active }) .merged

/-- The lowest-numbered FREE general record (R149). -/
def OutageWork.freeGeneral (w : OutageWork) : Option OutageId :=
  ((idsWhere w.records (fun r => r.isNone)).filter (fun i => decide (i.val < 31))).head?

/-- A group given its record (R148, R149). -/
def Ev.placeGroup (e : Ev) (pub : Publication) (w0 : OutageWork) (g : Option Nat) (segs : List SegId) : OutageWork :=
  let w := w0.leaveRelight segs
  match w.planRecord g with
  | some i => w.put i (w.records[i].map (fun o => o.addOff e.table segs)) .grew
  | none =>
    match w.freeGeneral with
    | some i => w.put i (some (openOutage e.table (e.groupCause pub.order g) segs pub.stamp false)) .opened
    | none => w.overflow e.table (openOutage e.table (e.groupCause pub.order g) segs pub.stamp true) segs

/-- Every group placed: plan groups by authorisation sequence, and then the remainder group (R148). -/
def Ev.placeAll (e : Ev) (pub : Publication) (w : OutageWork) : OutageWork :=
  let segs := e.toPlace w
  let groups : List (Option Nat) := e.committedInOrder.map (fun p => some p.number) ++ [none]
  groups.foldl (fun acc g =>
    let mine := segs.filter (fun s => e.groupOf s == g)
    if mine.isEmpty then acc else e.placeGroup pub acc g mine) w

/-! ## R150: states settled -/

/-- A record after steps 1 and 2 of R150, with the causes these give its notice. -/
def Outage.settle (o : Outage) (now : Stamp) : Outage × List OutageNoticeCause :=
  let first := o.state == .active && o.off.isEmpty
  let o1 : Outage := if first then { o with state := .relighting } else o
  let causes : List OutageNoticeCause := if first then [.relighting] else []
  if o1.state ≠ .closed ∧ o1.off.isEmpty = true ∧ o1.awaiting = 0 then
    ({ o1 with state := .closed, endStamp := some now }, causes ++ [.closed])
  else (o1, causes)

/-- One record settled (R150). `wasClosed`: it was CLOSED before this publication. -/
def OutageWork.settleOne (w : OutageWork) (now : Stamp) (i : OutageId) (wasClosed : Bool) : OutageWork :=
  match w.records[i] with
  | none => w
  | some o =>
    if wasClosed && o.state == .closed then w.put i none .freed
    else
      let r := o.settle now
      ⟨upd w.records i (fun _ => some r.1), w.log ++ r.2.map (fun c => (i, c))⟩

/-- A record is held and CLOSED. -/
def outageClosed (r : Option Outage) : Bool := r.any (fun o => o.state == .closed)

/-- Every record settled (R150). -/
def OutageWork.settleAll (w : OutageWork) (now : Stamp) (before : Vector (Option Outage) 32) : OutageWork :=
  (idsWhere w.records (fun r => r.isSome)).foldl (fun acc i => acc.settleOne now i (outageClosed before[i])) w

/-! ## Alarm and notice -/

/-- The customers off of a record that is held and not CLOSED. -/
def openCustomers (r : Option Outage) : Option Nat :=
  (r.filter (fun o => o.state != .closed)).map (fun o => o.customersOff)

/-- LARGE_OUTAGE judged at an event (R153), the customers off before and after both against the threshold now in force
(DESIGN CHOICE, notes/assumptions/56.md). `opened`: the record opened in this event. -/
def Ev.judgeOutage (e : Ev) (i : OutageId) (before after : Option Outage) (opened : Bool) : Ev :=
  let limit := e.table.params.largeOutage
  let e0 := if opened && before.isSome then e.clear .largeOutage i.val else e
  match openCustomers after with
  | none => if before.isSome then e0.clear .largeOutage i.val else e0
  | some n =>
    let place := (after.map (fun o => o.place)).getD noPlace
    let old := if opened then none else openCustomers before
    match old with
    | none => if limit ≤ n then e0.raise .largeOutage i.val 1 place else e0
    | some m =>
      if m < limit ∧ limit ≤ n then e0.raise .largeOutage i.val 1 place
      else if limit ≤ m ∧ n < limit then e0.clear .largeOutage i.val
      else e0

/-- The plan number of a cause, 0 for any other (R183). -/
def OutageCause.plan? (c : OutageCause) : Nat :=
  match c with
  | .plan n => n
  | _ => 0

/-- The flags of an OUTAGE NOTICE: merged, end stamp present (R183). -/
def Outage.noticeFlags (o : Outage) : Nat := flag o.merged + 2 * flag o.endStamp.isSome

/-- OUTAGE NOTICE (R154, R183). A freed record's state is FFh. -/
def outageNoticeBody (i : OutageId) (o : Outage) (cause : Byte) (freed : Bool) : List Byte :=
  [0x97, 0] ++ u8 i.val ++ [cause] ++ u8 o.cause.code ++ u16 o.cause.plan? ++ [o.place] ++ u8 o.noticeFlags ++
    (if freed then [0xFF] else u8 o.state.code) ++ u16 o.off.length ++ u16 o.relight.length ++ u32 o.customersOff ++
    u32 o.awaiting ++ u32 o.relit ++ w32 o.startStamp ++ opt32 o.endStamp

/-- The cause byte of a notice: the first of R154 that the event gave; a change that none of them names leaves it open. -/
def Ev.noticeCause (e : Ev) (causes : List OutageNoticeCause) : Byte :=
  match (causes.map (fun c => c.code)).min? with
  | some k => BitVec.ofNat 8 k
  | none => Config.unlistedOutageCause e.events

/-- An OUTAGE NOTICE of a record to every console and dispatch port that is UP (R154). -/
def Ev.outageNotice (e : Ev) (i : OutageId) (before after : Option Outage) (causes : List OutageNoticeCause) : Ev :=
  match after, before with
  | some o, _ => e.notifyAll LinkPort.deskUp (outageNoticeBody i o (e.noticeCause causes) false)
  | none, some o => e.notifyAll LinkPort.deskUp (outageNoticeBody i o.emptied (e.noticeCause causes) true)
  | none, none => e

/-- What the log holds of one record. -/
def OutageWork.causesOf (w : OutageWork) (i : OutageId) : List OutageNoticeCause :=
  (w.log.filter (fun x => x.1 == i)).map (fun x => x.2)

/-- The alarm and the notice of one record after the work of an event. A record whose sets changed and came back within the event
is one that changed (the model's choice, notes/assumptions/60.md). -/
def Ev.showOutage (e : Ev) (before : Vector (Option Outage) 32) (w : OutageWork) (i : OutageId) : Ev :=
  let causes := w.causesOf i
  if before[i] = w.records[i] ∧ causes = [] then e
  else (e.judgeOutage i before[i] w.records[i] (causes.contains .opened)).outageNotice i before[i] w.records[i] causes

/-- Every record shown, in record order: that LARGE_OUTAGE of several records is judged in this order is the model's choice
(notes/assumptions/66.md). -/
def Ev.showAll (e : Ev) (before : Vector (Option Outage) 32) (w : OutageWork) : Ev :=
  (idsWhere (Vector.replicate 32 ()) (fun _ => true)).foldl (fun acc i => acc.showOutage before w i) e

/-! ## The publication -/

/-- A counted note settled (R146). -/
def settleNote (n : Option CauseNote) (order : Nat) : Option CauseNote :=
  match n with
  | none => none
  | some c =>
    if c.firstOrder ≤ order then
      (if c.lastOrder ≤ order then none else some ⟨c.lastStamp, c.lastOrder, c.lastStamp, c.lastOrder⟩)
    else some c

/-- A publication at the Outage Register (R147 to R150). -/
def Ev.outagesAt (e : Ev) (pub : Publication) : Ev :=
  let before := e.outages.records
  let w := (e.placeAll pub e.cleanAll).settleAll e.now before
  let e1 := e.modOutages (fun o => { o with
    records := w.records, feedNote := settleNote o.feedNote pub.order, movementNote := settleNote o.movementNote pub.order })
  e1.showAll before w

/-- PUBLICATION_OUTAGES (R147). -/
def outagesBlock : Ev → Ev := takeDelivery .outages (fun pub e => e.outagesAt pub)

/-! ## Requests -/

/-- The held record a byte names (R151, R152). -/
def Ev.heldOutage (e : Ev) (record : Byte) : Option (OutageId × Outage) :=
  (objectOf 32 record.toNat).bind (fun i => e.outages.records[i].map (fun o => (i, o)))

/-- A record written back with its alarm and notice. -/
def Ev.putOutage (e : Ev) (i : OutageId) (before after : Outage) (causes : List OutageNoticeCause) : Ev :=
  ((e.modOutages (fun r => { r with records := upd r.records i (fun _ => some after) })).judgeOutage i (some before)
    (some after) false).outageNotice i (some before) (some after) causes

/-- The awaiting count of a segment in a relight set. -/
def Outage.awaitingOf (o : Outage) (s : SegId) : Option Nat :=
  (o.relight.find? (fun r => r.seg == s)).map (fun r => r.awaiting)

/-- A record after a relight report of an amount, but for its close (R151, steps 1 and 2). The relit total has no bound here; what
it does past 32 bits is the model's choice (notes/assumptions/67.md). -/
def Outage.relightBy (o : Outage) (s : SegId) (amount left : Nat) : Outage :=
  { o with
    relit := o.relit + amount
    relight := if left = 0 then o.relight.filter (fun r => r.seg != s)
      else o.relight.map (fun r => if r.seg == s then ⟨s, left⟩ else r) }

/-- A relight report that is taken (R151). -/
def Ev.relight (e : Ev) (q : Sender) (i : OutageId) (o : Outage) (s : SegId) (count awaiting : Nat) : Ev :=
  let amount := min count awaiting
  let o1 := o.relightBy s amount (awaiting - amount)
  let ends := o1.off.isEmpty && o1.awaiting == 0
  let o2 : Outage := if ends then { o1 with state := .closed, endStamp := some e.now } else o1
  (e.reply q .ok (u16 amount ++ u16 (awaiting - amount))).putOutage i o o2
    (.relit :: (if ends then [.closed] else []))

/-- RELIGHT REPORT (R151). -/
def relightBlock (record segment : Byte) (count : Half) (q : Sender) : Ev → Ev :=
  inOperating q (fun e =>
    match e.heldOutage record with
    | none => e.refuse q .noSuchObject
    | some (i, o) =>
      if o.state = .closed then e.refuse q .stateRefused
      else match o.awaitingOf segment.toFin with
        | none => e.refuse q .stateRefused
        | some awaiting =>
          if count.toNat = 0 then e.refuse q .stateRefused
          else e.relight q i o segment.toFin count.toNat awaiting)

/-- CLOSE OUTAGE (R152). -/
def closeOutageBlock (record : Byte) (q : Sender) : Ev → Ev :=
  inOperating q (fun e =>
    match e.heldOutage record with
    | none => e.refuse q .noSuchObject
    | some (i, o) =>
      if o.state = .relighting then
        (e.ok q).putOutage i o { o with state := .closed, endStamp := some e.now } [.closed]
      else e.refuse q .stateRefused)

/-! ## Meanings -/

/-- The meaning of PUBLICATION_OUTAGES. -/
def execPublicationOutages (s : State) : Host.Outcome State Fault Refusal := .next (event outagesBlock s)

/-- The meaning of RELIGHT_REPORT. -/
def execRelightReport (p : Port) (seq record segment : Byte) (count : Half) (s : State) :
    Host.Outcome State Fault Refusal :=
  .next (request p seq 0x0B (relightBlock record segment count) s)

/-- The meaning of CLOSE_OUTAGE. -/
def execCloseOutage (p : Port) (seq record : Byte) (s : State) : Host.Outcome State Fault Refusal :=
  .next (request p seq 0x27 (closeOutageBlock record) s)

end Sys2Proof.Machine
end

