-- ==== Sys2Proof/Machine/Table.lean ====
section
/-! DEFINITION. The Network Table's requests: the six table writes (R1 to R7, R15, R19), START and its four checks (R16),
STORE and its end (R17), and LOCK (R18). -/

namespace Sys2Proof.Machine

/-! ## Table writes -/

/-- The table changed. -/
def Ev.modTable (e : Ev) (f : Table → Table) : Ev := { e with table := f e.table }

/-- The TABLE_WRITE_REFUSED alarm of a port (R15). -/
def Ev.tableRefused (e : Ev) (p : Port) : Ev := e.raiseOnly .tableWriteRefused p.val 2 noPlace

/-- Steps 2 and 3 of R15: the mode, the lock and the store. -/
def tableWrite (q : Sender) (write : Ev → Ev) (e : Ev) : Ev :=
  match e.mode with
  | .operating => if e.store.lock then (e.refuse q .locked).tableRefused q.port else e.refuse q .modeRefused
  | .commissioning =>
    match e.store.state with
    | .idle => write e
    | .writing _ => e.refuse q .busy

/-- The zone code a WRITE SEGMENT may carry: its district is not 15 (R2). -/
def zoneOk (zone : Byte) : Bool := district zone != 15

/-- A segment record written (R2): customers clamped, the other fields kept by a write that makes it absent. -/
def SegStatic.write (r : SegStatic) (present : Bool) (zone : Byte) (customers : Half) : SegStatic :=
  if present then ⟨true, zone, clamp 0 60000 customers.toNat⟩ else { r with present := false }

/-- The live fields at a WRITE SEGMENT: a segment made present takes UNCERTAIN and 0 (R2). A write over a segment that is present
already makes nothing present and leaves them (DESIGN CHOICE, notes/assumptions/47.md). -/
def SegLive.written (l : SegLive) (was present : Bool) : SegLive := if !was && present then SegLive.reset else l

/-- The result of a WRITE SEGMENT: the record as stored (R182). -/
def segmentResult (i : SegId) (r : SegStatic) : List Byte :=
  u8 i.val ++ u8 (presenceCode r.present) ++ [r.zone] ++ u16 r.customers

/-- A WRITE SEGMENT that passes (R2, R62). -/
def Ev.writeSegment (e : Ev) (q : Sender) (i : SegId) (present : Bool) (zone : Byte) (customers : Half) : Ev :=
  let r := e.table.segs[i].write present zone customers
  let e1 := e.modTable (fun t => { t with segs := upd t.segs i (fun _ => r) })
  (({ e1 with segLive := upd e1.segLive i (fun l => l.written e.table.segs[i].present present) } : Ev).triggerPass).reply
    q .ok (segmentResult i r)

/-- WRITE SEGMENT (R2, R15). -/
def writeSegmentBlock (segment presence zone : Byte) (customers : Half) (q : Sender) : Ev → Ev :=
  tableWrite q (fun e =>
    match objectOf 256 segment.toNat, presenceOf presence with
    | none, _ => e.refuse q .noSuchObject
    | some i, some false => e.writeSegment q i false zone customers
    | some i, some true =>
      if zoneOk zone then e.writeSegment q i true zone customers else e.refuse q .noSuchObject
    | some _, none => if zoneOk zone then e.refuse q .stateRefused else e.refuse q .noSuchObject)

/-- The fields of a WRITE VALVE read from the request (R4). -/
structure ValveFields where
  kind : ValveKind
  normal : Position
  noClose : Bool
deriving DecidableEq, Repr

/-- The enumerated fields of a WRITE VALVE, if each holds a value its list has (R4, R179). -/
def valveFieldsOf (kind normal noClose : Byte) : Option ValveFields :=
  match kindOf kind, endPositionOf normal, markOf noClose with
  | some k, some n, some c => some ⟨k, n, c⟩
  | _, _, _ => none

/-- The result of a WRITE VALVE: the record as stored (R182). -/
def valveResult (i : ValveId) (r : ValveStatic) : List Byte :=
  u16 i.val ++ u8 (presenceCode r.present) ++ r.sideA.bytes ++ r.sideB.bytes ++ u8 r.kind.code ++ u8 r.normal.code ++
    u8 (flag r.noClose) ++ u16 r.travel

/-- The parts of a valve's live state that R12 counts are the same. -/
def ValveLive.sameForRevision (a b : ValveLive) : Bool :=
  a.position == b.position && a.fault == b.fault && a.claim == b.claim && a.holds == b.holds

/-- The live state of a valve returned to its reset values (R8, R12, R126). -/
def Ev.resetValve (e : Ev) (i : ValveId) (r : ValveStatic) : Ev :=
  let old := e.valveLive[i]
  let new := ValveLive.reset r.kind r.normal
  let e1 := ({ e with valveLive := upd e.valveLive i (fun _ => new) } : Ev).markSettle
  let e2 := if old.sameForRevision new then e1 else e1.bump
  let e3 := if old.fault = .noFault then e2 else e2.clear .valveFault i.val
  if (old.position ≠ .closed ∧ new.position = .closed) ∨ old.claim ≠ none then e3.clear .valveHeldMoved i.val else e3

/-- A WRITE VALVE that passes, with the record as it is to stand (R4, R8, R49, R62). -/
def Ev.writeValve (e : Ev) (q : Sender) (i : ValveId) (r : ValveStatic) : Ev :=
  (((e.modTable (fun t => { t with valves := upd t.valves i (fun _ => r) })).resetValve i r).triggerPass.markTiers).reply
    q .ok (valveResult i r)

/-- WRITE VALVE (R4, R15). -/
def writeValveBlock (valve : Half) (presence : Byte) (sideA sideB : Half) (kind normal noClose : Byte) (travel : Half)
    (q : Sender) : Ev → Ev :=
  tableWrite q (fun e =>
    match objectOf 512 valve.toNat with
    | none => e.refuse q .noSuchObject
    | some i =>
      if presenceOf presence = some false then e.writeValve q i { e.table.valves[i] with present := false }
      else match sideOf sideA, sideOf sideB with
        | some a, some b =>
          match presenceOf presence, valveFieldsOf kind normal noClose with
          | some true, some f =>
            e.writeValve q i ⟨true, a, b, f.kind, f.normal, f.noClose, travelOf f.kind travel.toNat⟩
          | _, _ => e.refuse q .stateRefused
        | _, _ => e.refuse q .noSuchObject)

/-- The result of a WRITE FEED: the record as stored (R182). -/
def feedResult (i : FeedId) (r : FeedStatic) : List Byte :=
  u8 i.val ++ u8 (presenceCode r.present) ++ u32 r.minimum ++ u32 r.deadband

/-- A feed point record written (R5). -/
def FeedStatic.write (r : FeedStatic) (present : Bool) (minimum deadband : Word) : FeedStatic :=
  if present then ⟨true, clamp 0 1000000 minimum.toNat, clamp 0 50000 deadband.toNat⟩ else { r with present := false }

/-- A WRITE FEED that passes: the feed state becomes DOUBTFUL and FEED_FAILED is cleared (R5, R43, R62). -/
def Ev.writeFeed (e : Ev) (q : Sender) (i : FeedId) (r : FeedStatic) : Ev :=
  ((((e.modTable (fun t => { t with feeds := upd t.feeds i (fun _ => r) })).setFeed i .doubtful).clear
    .feedFailed i.val).triggerPass).reply q .ok (feedResult i r)

/-- WRITE FEED (R5, R15). -/
def writeFeedBlock (feed presence : Byte) (minimum deadband : Word) (q : Sender) : Ev → Ev :=
  tableWrite q (fun e =>
    match objectOf 64 feed.toNat, presenceOf presence with
    | none, _ => e.refuse q .noSuchObject
    | some i, some present => e.writeFeed q i (e.table.feeds[i].write present minimum deadband)
    | some _, none => e.refuse q .stateRefused)

/-- The numeric fields of a WRITE STATION (R6). -/
structure StationFields where
  zero : Half
  span : Half
  fullScale : Word
  shift : Byte
  tier : Byte
  limits : Limits
deriving DecidableEq, Repr

/-- A station record written: the settings clamped in the order of R6, the span last. -/
def StationFields.record (f : StationFields) (l : Side) : StationStatic :=
  let z := clamp 0 4094 f.zero.toNat
  { present := true, location := l, zero := z, span := clamp 1 (4095 - z) f.span.toNat,
    fullScale := clamp 1000 1000000 f.fullScale.toNat, shift := clamp 0 4 f.shift.toNat, tier := clamp 0 5 f.tier.toNat,
    limits := clampLimits f.limits }

/-- Limits as four-byte fields. -/
def Limits.bytes (l : Limits) : List Byte :=
  u32 l.ll ++ u32 l.l ++ u32 l.h ++ u32 l.hh ++ u32 l.deadband ++ u32 l.fall

/-- A station record as the result of its write repeats it (R182). -/
def stationResult (i : StationId) (r : StationStatic) : List Byte :=
  u8 i.val ++ u8 (presenceCode r.present) ++ r.location.bytes ++ u16 r.zero ++ u16 r.span ++ u32 r.fullScale ++
    u8 r.shift ++ u8 r.tier ++ r.limits.bytes

/-- How many present stations one location can hold (R3). -/
def locationRoom (l : Side) : Nat :=
  match l with
  | .seg _ => 4
  | .feed _ => 1

/-- A present station can stand at a location beside the others there (R3). -/
def placementOk (t : Table) (i : StationId) (l : Side) : Bool :=
  decide (((stationsAt t l).filter (fun k => k != i)).length < locationRoom l)

/-- The suppressed mark a WRITE STATION leaves (R22). -/
def Ev.writtenSuppressed (e : Ev) (r : StationStatic) : Bool :=
  match r.location with
  | .seg s => r.present && e.table.segs[s].present && e.segLive[s].supply.cutOff
  | .feed _ => false

/-- The three alarms of a station cleared (R22): cleared, not withdrawn, wherever the station stands afterwards
(DESIGN CHOICE, notes/assumptions/49.md). -/
def Ev.clearStationAlarms (e : Ev) (i : StationId) : Ev :=
  ((e.clear .pressureBand i.val).clear .pressureFall i.val).clear .stationNoData i.val

/-- The Poll Scheduler at a WRITE STATION: every tier afresh, the overdue mark cleared, and a station made absent leaves
a waiting list (R45, R49, R55). -/
def Ev.pollStation (e : Ev) (i : StationId) (present : Bool) : Ev :=
  (e.modPoll (fun s => { s with
    overdue := upd s.overdue i (fun _ => false)
    waiting := if present then s.waiting else s.waiting.map (fun w => (w.1, w.2.filter (fun k => k != i))) })).setTiers

/-- A WRITE STATION that passes (R6, R22, R34, R42). -/
def Ev.writeStation (e : Ev) (q : Sender) (i : StationId) (r : StationStatic) : Ev :=
  let old := e.table.stations[i]
  let e1 := e.modTable (fun t => { t with stations := upd t.stations i (fun _ => r) })
  let e2 := (e1.pollStation i r.present).modStation i (fun _ =>
    { StationLive.reset r.limits with suppressed := e1.writtenSuppressed r })
  let e3 := (if r.present then e2.armStaleness i else e2).clearStationAlarms i
  let e4 := if old.present then e3.doubtFeed old.location else e3
  let e5 := if r.present then e4.doubtFeed r.location else e4
  e5.reply q .ok (stationResult i r)

/-- WRITE STATION (R3, R6, R15). -/
def writeStationBlock (station presence : Byte) (location : Half) (f : StationFields) (q : Sender) : Ev → Ev :=
  tableWrite q (fun e =>
    match objectOf 128 station.toNat with
    | none => e.refuse q .noSuchObject
    | some i =>
      if presenceOf presence = some false then e.writeStation q i { e.table.stations[i] with present := false }
      else match sideOf location with
        | none => e.refuse q .noSuchObject
        | some l =>
          if placementOk e.table i l then
            if presenceOf presence = some true then e.writeStation q i (f.record l) else e.refuse q .stateRefused
          else e.refuse q .tableFull)

/-- WRITE PORT (R7, R15): the table value alone changes. -/
def writePortBlock (port role : Byte) (rate : Word) (q : Sender) : Ev → Ev :=
  tableWrite q (fun e =>
    match objectOf 4 port.toNat, roleOf role with
    | none, _ => e.refuse q .noSuchObject
    | some _, none => e.refuse q .stateRefused
    | some k, some r =>
      (e.modTable (fun t => { t with ports := upd t.ports k (fun _ => ⟨r, bitRateOf rate.toNat⟩) })).reply q .ok
        (u8 k.val ++ u8 r.code ++ u32 (bitRateOf rate.toNat)))

/-- WRITE PARAMETER (R15, R19). -/
def writeParameterBlock (parameter : Byte) (value : Word) (q : Sender) : Ev → Ev :=
  tableWrite q (fun e =>
    match setParam e.table.params parameter.toNat value.toNat with
    | none => e.refuse q .noSuchObject
    | some (ps, v) => (e.modTable (fun t => { t with params := ps })).reply q .ok (u32 v))

/-! ## START (R16) -/

/-- The four checks, in order; a code is its place (R182). -/
inductive Check where
  | roles | sides | reach | limits
deriving DecidableEq, Repr

/-- ROLES 0 to LIMITS 3 (R182). -/
def Check.code : Check → Nat
  | .roles => 0 | .sides => 1 | .reach => 2 | .limits => 3

/-- How many of the ports LP0 to LP`k` have a table role. -/
def Table.roleCount (t : Table) (r : Role) (k : Nat) : Nat :=
  (portsInOrder.filter (fun p => decide (p.val ≤ k) && t.ports[p].role == r)).length

/-- A count of roles exceeds its limit among LP0 to LP`k` (R16). -/
def Table.rolesExceed (t : Table) (k : Nat) : Bool :=
  decide (1 < t.roleCount .telemetry k) || decide (3 < t.roleCount .console k) || decide (2 < t.roleCount .dispatch k)

/-- A check's outcome: passed, or failed with the failing object if there is one. -/
inductive CheckResult where
  | passed
  | failed (object : Option Nat)
deriving DecidableEq, Repr

/-- A check that fails at the first object of a list. -/
def CheckResult.firstOf {n : Nat} (failing : List (Fin n)) : CheckResult :=
  match failing with
  | [] => .passed
  | i :: _ => .failed (some i.val)

/-- The ROLES check. -/
def Table.checkRoles (t : Table) : CheckResult :=
  match portsInOrder.find? (fun p => t.rolesExceed p.val) with
  | some p => .failed (some p.val)
  | none => if t.roleCount .telemetry 3 = 0 ∨ t.roleCount .console 3 = 0 then .failed none else .passed

/-- A side or location names a present object. -/
def Table.sidePresent (t : Table) : Side → Bool
  | .seg i => t.segs[i].present
  | .feed i => t.feeds[i].present

/-- A valve meets the SIDES check. -/
def Table.sidesOk (t : Table) (v : ValveStatic) : Bool :=
  t.sidePresent v.sideA && t.sidePresent v.sideB && !(v.sideA.isFeed && v.sideB.isFeed) && v.sideA != v.sideB

/-- The SIDES check. -/
def Table.checkSides (t : Table) : CheckResult :=
  CheckResult.firstOf (idsWhere t.valves (fun v => v.present && !t.sidesOk v))

/-- The segments reached from the present feeds along the present valves, each taken as open (R16). -/
def Table.reachable (t : Table) : List SegId :=
  (reach ((t.valves.toList.filter (fun v => v.present)).map (fun v => (v.sideA, v.sideB)))
    (idsWhere t.feeds (fun f => f.present))).map (fun x => x.1)

/-- The REACH check. -/
def Table.checkReach (t : Table) : CheckResult :=
  CheckResult.firstOf ((idsWhere t.segs (fun s => s.present)).filter (fun i => !t.reachable.contains i))

/-- The LIMITS check. -/
def Table.checkLimits (t : Table) : CheckResult :=
  CheckResult.firstOf (idsWhere t.stations (fun s =>
    s.present && !(t.sidePresent s.location && limitsOrdered s.limits)))

/-- The four checks with their results, in order. -/
def Table.checks (t : Table) : List (Check × CheckResult) :=
  [(.roles, t.checkRoles), (.sides, t.checkSides), (.reach, t.checkReach), (.limits, t.checkLimits)]

/-- The first check that fails, with its object. -/
def Table.firstFailure (t : Table) : Option (Check × Option Nat) :=
  t.checks.findSome? (fun c =>
    match c.2 with
    | .passed => none
    | .failed o => some (c.1, o))

/-- The result of a refused START: the check and the object, FFFFh for none (R182). -/
def startFailureBytes (f : Check × Option Nat) : List Byte := u8 f.1.code ++ u16 (f.2.getD 0xFFFF)

/-- A port that becomes UNUSED: DOWN, with no liveness and neither port alarm (R177). -/
def Ev.retirePort (e : Ev) (p : Port) : Ev :=
  ((e.modPort p (fun l => { l with state := .down, liveness := none })).clear .portSilent p.val).clear .portLost p.val

/-- A change of working role at START, with the port reset (R16, R127, R177). -/
def Ev.changeRole (e : Ev) (p : Port) (r : Role) : Ev :=
  let e1 := (e.portReset p).modPort p (fun l => { l with role := r })
  match r with
  | .unused => e1.retirePort p
  | .telemetry => (e1.modSwitching (fun sw => { sw with surveyPending := true })).markSettle
  | _ => e1

/-- Each port takes its table role (R16, step 2), in the order LP0 to LP3: no rule gives an order (notes/assumptions/70.md). -/
def Ev.takeRoles (e : Ev) : Ev :=
  portsInOrder.foldl (fun acc p =>
    if acc.ports[p].role = acc.table.ports[p].role then acc else acc.changeRole p acc.table.ports[p].role) e

/-- The PORT NOTICEs of the ports that become UNUSED, with the states they had (R177), in the order LP0 to LP3
(notes/assumptions/70.md). -/
def Ev.unusedNotices (e : Ev) (before : Vector LinkPort 4) : Ev :=
  portsInOrder.foldl (fun acc p =>
    if before[p].role ≠ .unused ∧ acc.ports[p].role = .unused then acc.portNotice p before[p].state .down true else acc) e

/-- A waiting POLL LIST is withdrawn where the telemetry port's working role is about to change (R54). -/
def Ev.withdrawAtRole (e : Ev) : Ev :=
  match e.telemetryPort with
  | none => e
  | some p => if e.table.ports[p].role = .telemetry then e else e.withdrawPollList

/-- The steps of a START whose checks pass (R16). -/
def Ev.startPart (e : Ev) (q : Sender) : Ev :=
  let e1 := (({ e with mode := .operating } : Ev).withdrawAtRole).takeRoles
  ((e1.unusedNotices e.ports).ok q).triggerPass

/-- START (R16). -/
def startBlock (q : Sender) (e : Ev) : Ev :=
  match e.mode, e.store.state with
  | .operating, _ => e.refuse q .modeRefused
  | .commissioning, .writing _ => e.refuse q .busy
  | .commissioning, .idle =>
    match e.table.firstFailure with
    | some f => e.reply q .stateRefused (startFailureBytes f)
    | none => e.startPart q

/-! ## STORE and LOCK (R17, R18) -/

/-- The store changed. -/
def Ev.modStore (e : Ev) (f : ConfigStore → ConfigStore) : Ev := { e with store := f e.store }

/-- STORE (R17): acceptance clears the validity mark; the entry held for the reply stays held. -/
def storeBlock (q : Sender) (e : Ev) : Ev :=
  match e.mode, e.store.state with
  | .operating, _ => e.refuse q .modeRefused
  | .commissioning, .writing _ => e.refuse q .busy
  | .commissioning, .idle => e.modStore (fun c => { c with valid := false, state := .writing (some (q.port, q.seq)) })

/-- The reply of a STORE that has reached its end, where its port still holds the entry (R17). -/
def Ev.storeReply (e : Ev) (r : Option (Port × Byte)) : Ev :=
  match r with
  | none => e
  | some (p, seq) => e.ok ⟨p, seq, 0x16⟩

/-- STORE_END (R17): nothing happens unless the store is WRITING. -/
def storeEndBlock (e : Ev) : Ev :=
  match e.store.state with
  | .idle => e
  | .writing r =>
    ((e.modStore (fun c => { c with copy := e.table, valid := true, state := .idle })).storeReply r).triggerPass

/-- LOCK (R18). -/
def lockBlock (q : Sender) (e : Ev) : Ev :=
  match e.mode with
  | .commissioning => e.refuse q .modeRefused
  | .operating =>
    if e.store.valid then (e.modStore (fun c => { c with lock := true })).ok q else e.refuse q .stateRefused

/-! ## Meanings -/

/-- The meaning of WRITE_SEGMENT. -/
def execWriteSegment (p : Port) (seq segment presence zone : Byte) (customers : Half) (s : State) :
    Host.Outcome State Fault Refusal :=
  .next (request p seq 0x10 (writeSegmentBlock segment presence zone customers) s)

/-- The meaning of WRITE_VALVE. -/
def execWriteValve (p : Port) (seq : Byte) (valve : Half) (presence : Byte) (sideA sideB : Half)
    (kind normal noClose : Byte) (travel : Half) (s : State) : Host.Outcome State Fault Refusal :=
  .next (request p seq 0x11 (writeValveBlock valve presence sideA sideB kind normal noClose travel) s)

/-- The meaning of WRITE_FEED. -/
def execWriteFeed (p : Port) (seq feed presence : Byte) (minimum deadband : Word) (s : State) :
    Host.Outcome State Fault Refusal :=
  .next (request p seq 0x12 (writeFeedBlock feed presence minimum deadband) s)

/-- The meaning of WRITE_STATION. -/
def execWriteStation (p : Port) (seq station presence : Byte) (location zero span : Half) (fullScale : Word)
    (shift tier : Byte) (ll l h hh deadband fall : Word) (s : State) : Host.Outcome State Fault Refusal :=
  .next (request p seq 0x13 (writeStationBlock station presence location
    ⟨zero, span, fullScale, shift, tier, ⟨ll.toNat, l.toNat, h.toNat, hh.toNat, deadband.toNat, fall.toNat⟩⟩) s)

/-- The meaning of WRITE_PORT. -/
def execWritePort (p : Port) (seq port role : Byte) (rate : Word) (s : State) : Host.Outcome State Fault Refusal :=
  .next (request p seq 0x14 (writePortBlock port role rate) s)

/-- The meaning of WRITE_PARAMETER. -/
def execWriteParameter (p : Port) (seq parameter : Byte) (value : Word) (s : State) :
    Host.Outcome State Fault Refusal :=
  .next (request p seq 0x15 (writeParameterBlock parameter value) s)

/-- The meaning of STORE. -/
def execStore (p : Port) (seq : Byte) (s : State) : Host.Outcome State Fault Refusal :=
  .next (request p seq 0x16 storeBlock s)

/-- The meaning of STORE_END. -/
def execStoreEnd (s : State) : Host.Outcome State Fault Refusal := .next (event storeEndBlock s)

/-- The meaning of START. -/
def execStart (p : Port) (seq : Byte) (s : State) : Host.Outcome State Fault Refusal :=
  .next (request p seq 0x17 startBlock s)

/-- The meaning of LOCK. -/
def execLock (p : Port) (seq : Byte) (s : State) : Host.Outcome State Fault Refusal :=
  .next (request p seq 0x18 lockBlock s)

end Sys2Proof.Machine
end

