-- ==== Sys2Proof/Machine/Reads.lean ====
section
/-! DEFINITION. The read requests (R184) and their pages (R185). The manual lists what each reply holds; the model lays the
fields out in the order listed, encoded by R179. -/

namespace Sys2Proof.Machine

/-! ## Pages (R185) -/

/-- One page: the list's total length, the start index, the number of entries sent, the marker, the entries. -/
def page {α : Type} (entries : List α) (start limit : Nat) (marker : Word) (bytes : α → List Byte) : List Byte :=
  let sent := (entries.drop start).take limit
  u16 entries.length ++ u8 start ++ countByte sent.length ++ w32 marker ++ sent.flatMap bytes

/-- A segment in a page. -/
def segByte (i : SegId) : List Byte := u8 i.val
/-- A valve in a page. -/
def valveBytes (v : ValveId) : List Byte := u16 v.val

/-! ## Segments, valves, stations -/

/-- The engine of the tracer and its generation, as READ SEGMENT reports them (R66). -/
def Tracer.bytes (t : Tracer) : List Byte := w32 t.generation ++ u8 t.engine.code ++ u8 (flag t.rerun)

/-- The result of READ SEGMENT (R184). -/
def Ev.segmentBytes (e : Ev) (i : SegId) : List Byte :=
  let r := e.table.segs[i]
  let stations := stationsAt e.table (.seg i)
  u8 (presenceCode r.present) ++ [r.zone] ++ u16 r.customers ++ countByte stations.length ++
    stations.map (fun k => BitVec.ofNat 8 k.val) ++ u8 e.segLive[i].supply.code ++ w32 e.segLive[i].changed ++
    e.tracer.bytes

/-- READ SEGMENT (R184). -/
def readSegmentBlock (segment : Byte) (q : Sender) (e : Ev) : Ev := e.reply q .ok (e.segmentBytes segment.toFin)

/-- The age of a final order: how long ago it became final (R184). -/
def Ev.finalAge (e : Ev) (o : Order) : Nat :=
  match o.endStamp with
  | none => 0
  | some t => e.age t

/-- The order record READ VALVE reports: the non-final one, otherwise the latest final one still held (R184). Of two final ones
with one end stamp it is the one that stands first in the table (the model's choice, notes/assumptions/40.md). -/
def Ev.shownOrder (e : Ev) (v : ValveId) : Option Order :=
  match e.valveOrder? v with
  | some o => some o
  | none => (sortBy (fun a b => decide (e.finalAge a < e.finalAge b)) (e.ordersWhere (fun o => o.valve == v))).head?

/-- An order record: a flags byte (record held, deadline present, end stamp present) and the fields of R111. -/
def orderRecordBytes (o : Option Order) : List Byte :=
  match o with
  | none => u8 0 ++ List.replicate 20 0
  | some o =>
    u8 (1 + 2 * flag o.deadline.isSome + 4 * flag o.endStamp.isSome) ++ u8 o.tag ++ u16 o.valve.val ++ u8 o.path.code ++
      u8 o.action.code ++ u16 o.plan ++ u8 o.orderClass.code ++ u8 o.rank ++ u8 (flag o.reclose) ++ u8 o.state.code ++
      portByte o.port ++ opt32 o.deadline ++ opt32 o.endStamp

/-- A valve's live state and shared holds (R8, R184), its flags byte first: claim present (R179). -/
def ValveLive.bytes (l : ValveLive) : List Byte :=
  u8 (flag l.claim.isSome) ++ u8 l.position.code ++ u8 l.fault.code ++ u16 (l.claim.getD 0) ++ u8 (flag l.recloseUsed) ++
    w32 l.lastChange ++ countByte l.holds.length ++ l.holds.flatMap u16

/-- A valve's static fields (R4, R184). -/
def ValveStatic.bytes (r : ValveStatic) : List Byte :=
  u8 (presenceCode r.present) ++ r.sideA.bytes ++ r.sideB.bytes ++ u8 r.kind.code ++ u8 r.normal.code ++
    u8 (flag r.noClose) ++ u16 r.travel

/-- READ VALVE (R184). -/
def readValveBlock (valve : Half) (q : Sender) (e : Ev) : Ev :=
  match objectOf 512 valve.toNat with
  | none => e.refuse q .noSuchObject
  | some v =>
    e.reply q .ok (e.table.valves[v].bytes ++ e.valveLive[v].bytes ++ orderRecordBytes (e.shownOrder v))

/-- The last converted value, zeros for none (R22, R179). -/
def convertedBytes (c : Option Converted) : List Byte :=
  match c with
  | none => u32 0 ++ u8 0 ++ u8 0
  | some x => u32 x.value ++ u8 x.clamp.code ++ u8 x.quality.code

/-- A station's live state (R22, R184), its flags byte first: converted value, pending limits, capture and staleness
deadline present. -/
def StationLive.bytes (l : StationLive) : List Byte :=
  u8 (flag l.converted.isSome + 2 * flag l.waiting.isSome + 4 * flag l.capture.isSome + 8 * flag l.staleness.isSome) ++
    u8 l.quality.code ++ convertedBytes l.converted ++ u32 l.pressure ++ w32 l.tPrev ++ i32 l.rate ++ u8 l.fallCount ++
    u8 l.band.code ++ l.active.bytes ++ (l.waiting.getD Limits.empty).bytes ++ (captureBytesOf l.capture) ++
    u8 (flag l.suppressed) ++ opt32 l.staleness
where
  /-- The capture without its flag. -/
  captureBytesOf (c : Option Capture) : List Byte :=
    match c with
    | none => List.replicate 14 0
    | some x => u8 x.band.code ++ u32 x.pressure ++ i32 x.rate ++ w32 x.stamp ++ u8 x.further

/-- A station's static fields (R6, R184). -/
def StationStatic.bytes (r : StationStatic) : List Byte :=
  u8 (presenceCode r.present) ++ r.location.bytes ++ u16 r.zero ++ u16 r.span ++ u32 r.fullScale ++ u8 r.shift ++
    u8 r.tier ++ r.limits.bytes

/-- READ STATION (R184). -/
def readStationBlock (station : Byte) (q : Sender) (e : Ev) : Ev :=
  match objectOf 128 station.toNat with
  | none => e.refuse q .noSuchObject
  | some i =>
    e.reply q .ok (e.table.stations[i].bytes ++ e.stationLive[i].bytes ++ u8 e.poll.tiers[i] ++
      u8 (flag e.poll.overdue[i]))

/-! ## Plans -/

/-- The proof fields of R131, a flags byte first: awaiting, closure stamp, awaited generation and proof deadline
present. -/
def Plan.proofBytes (p : Plan) : List Byte :=
  u8 (flag p.awaiting + 2 * flag p.closureStamp.isSome + 4 * flag p.awaitedGeneration.isSome +
      8 * flag p.proofDeadline.isSome) ++
    opt32 p.closureStamp ++ opt32 p.awaitedGeneration ++ opt32 p.proofDeadline ++ portByte p.confirmedBy

/-- The fields R184 gives the SUMMARY of READ PLAN: those of the PLAN NOTICE and the proof fields. No event stands behind the
notice's cause field here, and its value is free (notes/assumptions/46.md). -/
def Ev.planRecordBytes (e : Ev) (p : Plan) : List Byte :=
  u16 p.number ++ u8 p.incident ++ u8 p.state.code ++ u8 (e.unstatedCause p.number).code ++ e.planFields p ++ p.proofBytes

/-- The final order records of a plan (R111). -/
def Ev.finalOrders (e : Ev) (n : Nat) : List Order := e.ordersWhere (fun o => o.plan == n && !o.state.nonFinal)

/-- The SUMMARY of READ PLAN: the fields of R184, then what it shows of the plan's final order records (R111), a free value that
may be nothing (notes/assumptions/53.md), as far as a body of 250 bytes holds it (R170). -/
def Ev.planSummary (e : Ev) (p : Plan) : List Byte :=
  let fields := e.planRecordBytes p
  fields ++ (Config.planOrderBytes ((e.finalOrders p.number).flatMap (fun o => orderRecordBytes (some o)))).take
    (246 - fields.length)

/-- One list of READ PLAN (R185). -/
def Ev.planPage (e : Ev) (p : Plan) (l : PlanList) (start : Nat) : List Byte :=
  match l with
  | .summary => e.planSummary p
  | .region => page p.segs start 200 e.revision segByte
  | .collateral => page p.collateral start 200 e.revision segByte
  | .close => page p.close start 64 e.revision (fun c => valveBytes c.valve ++ u8 c.rank)
  | .holding => page p.holding start 64 e.revision valveBytes
  | .shared => page p.shared start 64 e.revision valveBytes
  | .incomplete => page p.incomplete start 64 e.revision valveBytes
  | .done => page p.done start 64 e.revision (fun d => valveBytes d.valve ++ u8 d.progress.code)

/-- READ PLAN (R184, R185). -/
def readPlanBlock (plan : Half) (list start : Byte) (q : Sender) (e : Ev) : Ev :=
  match e.plan? plan.toNat with
  | none => e.refuse q .noSuchObject
  | some p =>
    match planListOf list with
    | none => e.refuse q .stateRefused
    | some l => e.reply q .ok (e.planPage p l start.toNat)

/-! ## Incidents and calls -/

/-- The fields of an incident (R73), its segments among them. The opening sequence is sent as the low 32 bits of its count, a
width of the model's choice (notes/assumptions/69.md). -/
def Incident.bytes (i : Incident) : List Byte :=
  u8 i.number ++ u32 i.sequence ++ u8 i.origin.code ++ [i.zone] ++ u8 i.grade ++ u8 (flag i.escalated) ++
    u8 i.state.code ++ u16 ((i.plan.map (fun x => x.1)).getD 0) ++ u8 (planMarkCode i.plan) ++ w32 i.openedAt ++
    countByte i.segments.length ++ i.segments.flatMap segByte

/-- The arrival list of a zone (R81). -/
def arrivalBytes (ts : List Stamp) : List Byte := countByte ts.length ++ ts.flatMap w32

/-- The entries of a page of calls: at most 40, and no more than fit a body of 250 bytes (R185, R170). -/
def callsThatFit (fixed : Nat) : Nat := min 40 ((246 - fixed - 8) / 5)

/-- One incident with the arrival list of its zone and a page of its calls (R184, R81). -/
def Ev.incidentBytes (e : Ev) (i : Incident) (start : Nat) : List Byte :=
  let head := i.bytes ++ arrivalBytes e.calls.arrivals[i.zone.toFin]
  head ++ page (e.calls.callsOf i.number) start (callsThatFit head.length) (Config.callsPageMarker e.events)
    (fun c => w32 c.ref ++ u8 c.state.code)

/-- Every held incident's number, state and grade (R184). -/
def CallRegister.incidentTable (c : CallRegister) : List Byte :=
  countByte c.incidents.length ++ c.incidents.flatMap (fun i => u8 i.number ++ u8 i.state.code ++ u8 i.grade)

/-- READ INCIDENT (R184). -/
def readIncidentBlock (incident start : Byte) (q : Sender) (e : Ev) : Ev :=
  if incident.toNat = 0 then e.reply q .ok e.calls.incidentTable
  else match e.incident? incident.toNat with
    | none => e.refuse q .noSuchObject
    | some i => e.reply q .ok (e.incidentBytes i start.toNat)

/-- A call record (R72), its flags byte first: incident present (R179). The arrival sequence is sent as the low 32 bits of its
count, a width of the model's choice (notes/assumptions/69.md). -/
def Call.bytes (c : Call) : List Byte :=
  u8 (flag c.incident.isSome) ++ w32 c.ref ++ u8 c.segment.val ++ u8 c.grade ++ u8 c.place.code ++ w32 c.arrival ++ u32 c.sequence ++ u8 c.state.code ++
    u8 (c.incident.getD 0)

/-- READ CALL (R184). -/
def readCallBlock (ref : Word) (q : Sender) (e : Ev) : Ev :=
  match e.calls.calls.find? (fun c => c.ref == ref) with
  | none => e.refuse q .noSuchObject
  | some c => e.reply q .ok c.bytes

/-! ## Outages and alarms -/

/-- The fields of an outage record (R145), its state first. -/
def Outage.bytes (o : Outage) : List Byte :=
  u8 o.state.code ++ u8 o.cause.code ++ u16 o.cause.plan? ++ [o.place] ++ u8 o.noticeFlags ++ u16 o.off.length ++
    u16 o.relight.length ++ u32 o.customersOff ++ u32 o.awaiting ++ u32 o.relit ++ w32 o.startStamp ++ opt32 o.endStamp

/-- A FREE record: the mark FFh in place of a state, and zeros (R184). -/
def freeOutageBytes : List Byte := [0xFF] ++ List.replicate 29 0

/-- One list of READ OUTAGE (R185). -/
def Ev.outagePage (e : Ev) (o : Outage) (l : OutageList) (start : Nat) : List Byte :=
  match l with
  | .summary => o.bytes
  | .off => page o.off start 200 e.tracer.generation segByte
  | .relight => page o.relight start 60 e.tracer.generation (fun r => u8 r.seg.val ++ u16 r.awaiting)

/-- READ OUTAGE (R184, R185). -/
def readOutageBlock (record list start : Byte) (q : Sender) (e : Ev) : Ev :=
  match objectOf 32 record.toNat, outageListOf list with
  | none, _ => e.refuse q .noSuchObject
  | some _, none => e.refuse q .stateRefused
  | some i, some l =>
    match e.outages.records[i] with
    | none => e.reply q .ok freeOutageBytes
    | some o => e.reply q .ok (e.outagePage o l start.toNat)

/-- An alarm record in a page (R185). -/
def AlarmRec.bytes (r : AlarmRec) : List Byte :=
  u8 r.kind.code ++ u16 r.object ++ [r.place] ++ u8 r.priority ++ u8 r.state.code ++ u8 r.reraise ++ w32 r.raiseStamp

/-- READ ALARMS (R184, R185): the OVERFLOW record, when held, is index 0. -/
def readAlarmsBlock (start : Byte) (q : Sender) (e : Ev) : Ev :=
  e.reply q .ok (page e.alarms.all start.toNat 20 e.alarms.changeCount AlarmRec.bytes)

/-! ## Ports -/

/-- The list and withheld counts (R45), a flags byte first: present, for the telemetry port (R184); zeros for another port
(R179). -/
def Ev.pollCounts (e : Ev) (p : Port) : List Byte :=
  if e.telemetryPort = some p then u8 1 ++ u16 e.poll.listCount ++ u16 e.poll.withheldCount
  else u8 0 ++ u16 0 ++ u16 0

/-- The fields of a port (R169), a flags byte first: liveness deadline present, alarm-resync mark. -/
def LinkPort.bytes (l : LinkPort) (tableRole : Role) : List Byte :=
  u8 (flag l.liveness.isSome + 2 * flag l.resyncMark) ++ u8 l.state.code ++ u8 l.role.code ++ u8 tableRole.code ++
    u32 l.rate ++ opt32 l.liveness ++ u8 l.entries ++ u16 l.validCount ++ u16 l.crcCount ++ u16 l.lengthCount ++
    u16 l.abortCount ++ u16 l.discardCount ++ u16 l.dropCount

/-- The mode, the two marks of the store, the revision and the station time (R184). -/
def Ev.partBytes (e : Ev) : List Byte :=
  u8 e.mode.code ++ u8 (flag e.store.valid) ++ u8 (flag e.store.lock) ++ w32 e.revision ++ w32 e.now

/-- READ PORT (R184). -/
def readPortBlock (port : Byte) (q : Sender) (e : Ev) : Ev :=
  match objectOf 4 port.toNat with
  | none => e.refuse q .noSuchObject
  | some k =>
    e.reply q .ok (e.ports[k].bytes e.table.ports[k].role ++ e.partBytes ++ e.pollCounts k)

/-! ## Meanings -/

/-- The meaning of READ_SEGMENT. -/
def execReadSegment (p : Port) (seq segment : Byte) (s : State) : Host.Outcome State Fault Refusal :=
  .next (request p seq 0x31 (readSegmentBlock segment) s)

/-- The meaning of READ_VALVE. -/
def execReadValve (p : Port) (seq : Byte) (valve : Half) (s : State) : Host.Outcome State Fault Refusal :=
  .next (request p seq 0x32 (readValveBlock valve) s)

/-- The meaning of READ_STATION. -/
def execReadStation (p : Port) (seq station : Byte) (s : State) : Host.Outcome State Fault Refusal :=
  .next (request p seq 0x33 (readStationBlock station) s)

/-- The meaning of READ_PLAN. -/
def execReadPlan (p : Port) (seq : Byte) (plan : Half) (list start : Byte) (s : State) :
    Host.Outcome State Fault Refusal :=
  .next (request p seq 0x34 (readPlanBlock plan list start) s)

/-- The meaning of READ_INCIDENT. -/
def execReadIncident (p : Port) (seq incident start : Byte) (s : State) : Host.Outcome State Fault Refusal :=
  .next (request p seq 0x35 (readIncidentBlock incident start) s)

/-- The meaning of READ_CALL. -/
def execReadCall (p : Port) (seq : Byte) (ref : Word) (s : State) : Host.Outcome State Fault Refusal :=
  .next (request p seq 0x36 (readCallBlock ref) s)

/-- The meaning of READ_OUTAGE. -/
def execReadOutage (p : Port) (seq record list start : Byte) (s : State) : Host.Outcome State Fault Refusal :=
  .next (request p seq 0x37 (readOutageBlock record list start) s)

/-- The meaning of READ_ALARMS. -/
def execReadAlarms (p : Port) (seq start : Byte) (s : State) : Host.Outcome State Fault Refusal :=
  .next (request p seq 0x38 (readAlarmsBlock start) s)

/-- The meaning of READ_PORT. -/
def execReadPort (p : Port) (seq port : Byte) (s : State) : Host.Outcome State Fault Refusal :=
  .next (request p seq 0x39 (readPortBlock port) s)

end Sys2Proof.Machine
end

