-- ==== Sys2Proof/Machine/Switching.lean ====
section
/-! DEFINITION. The Switching Controller's commands: valve reports and the held-valve watch (R124, R125), order and crew
replies (R118, R120, R123), the deadlines of orders (R119, R123), and CLEAR FAULT (R126). -/

namespace Sys2Proof.Machine

/-! ## The held-valve watch (R125) -/

/-- A plan whose held valve may be re-closed once (R125). -/
def PlanState.recloses (st : PlanState) : Bool :=
  st == .executing || st == .proving || st == .proven || st == .letBy || st == .unproven

/-- The re-close of a valve queued at once, or left waiting for a record (R125, step 3). A valve that has a non-final
order already takes no second one (R111). -/
def Ev.queueReclose (e : Ev) (p : Plan) (v : ValveId) : Ev :=
  if (e.valveOrder? v).isSome then e
  else match e.recordFor with
    | some i => e.queueOrder ⟨p.number, v, .closeValve, (p.rankOn v).getD 1, true⟩ i
    | none => (e.modPlan p.number (fun q => { q with recloseWaiting := q.recloseWaiting ++ [v] })).markSettle

/-- The first held-valve movement under a claim (R125, steps 1 to 4). -/
def Ev.reclose (e : Ev) (p : Plan) (v : ValveId) : Ev :=
  let e1 := (e.modValve v (fun l => { l with recloseUsed := true })).modPlan p.number (fun q => { q with
    proofDeadline := none, awaiting := false, awaitedGeneration := none })
  ((e1.setPlanState p.number .executing).queueReclose p v).planNotice p.number .reclose

/-- The watch on a valve that a plan holds and that has been reported in another position than CLOSED (R125). A late
DONE leaves the fault as it stands (R120): `faults` is then clear. -/
def Ev.heldWatch (e : Ev) (p : Plan) (v : ValveId) (faults : Bool) : Ev :=
  let e1 := e.raise .valveHeldMoved v.val 1 (valvePlace e.table v)
  if e1.valveLive[v].recloseUsed then (if faults then e1.writeFault v .localControl else e1).replanTrigger p.number
  else if p.state.recloses then e1.reclose p v
  else e1

/-! ## Reports (R124) -/

/-- The case of the table of R124 that a report falls under. Cases 2 to 4 carry the claiming plan. -/
inductive ReportCase where
  | inFlight
  | restoring (p : Plan)
  | held (p : Plan)
  | closes (p : Plan)
  | unplanned
  | other
deriving DecidableEq, Repr

/-- The plan that claims a valve, if it is held. -/
def Ev.claimant (e : Ev) (v : ValveId) : Option Plan := e.valveLive[v].claim.bind (fun n => e.plan? n)

/-- Positions between which a movement is known (R124, case 5). -/
def Position.known (p : Position) : Bool := p != .unknown

/-- The first case of R124 that applies. -/
def Ev.reportCase (e : Ev) (v : ValveId) (pos : Position) : ReportCase :=
  let before := e.valveLive[v].position
  if (e.order? (fun o => o.valve == v && o.state.inFlight)).isSome then .inFlight
  else match e.claimant v with
    | some p =>
      if p.state = .restoring then .restoring p
      else if before = .closed ∧ pos ≠ .closed then .held p
      else if p.close.any (fun c => c.valve == v) ∧ p.done.all (fun d => d.valve != v) ∧ pos = .closed then .closes p
      else .other
    | none =>
      if e.valveLive[v].claim = none ∧ before.known = true ∧ pos.known = true ∧ before ≠ pos then .unplanned else .other

/-- The QUEUED orders of a valve with an action are withdrawn (R111, R115). -/
def Ev.withdrawOf (e : Ev) (v : ValveId) (a : OrderAction) : Ev :=
  e.modOrders (fun o => o.valve == v && o.state == .queued && o.action == a) (fun _ => none)

/-- The QUEUED CLOSE order of a valve reported CLOSED is withdrawn (R115). A re-close that still waits for a record is no QUEUED
order and waits on (notes/assumptions/54.md). -/
def Ev.withdrawClosed (e : Ev) (v : ValveId) (pos : Position) : Ev :=
  if pos = .closed then e.withdrawOf v .closeValve else e

/-- A valve of a RESTORING plan reported OPEN while its OPEN order is QUEUED: the order is withdrawn and the entry is
reopened (R141). -/
def Ev.restoringReport (e : Ev) (p : Plan) (v : ValveId) (pos : Position) : Ev :=
  if pos = .opened ∧ (e.order? (fun o => o.valve == v && o.state == .queued && o.action == .openValve)).isSome then
    (e.withdrawOf v .openValve).setProgress p.number v .reopened
  else e

/-- The local-control flag of a report (R124, R126). -/
def Ev.localControl (e : Ev) (v : ValveId) (localFlag : Bool) : Ev :=
  if localFlag then e.writeFault v .localControl else e

/-- An unplanned movement (R124, case 5): VALVE_UNPLANNED, raised and cleared at once, and a report to the Outage Register. -/
def Ev.unplannedMove (e : Ev) (v : ValveId) : Ev :=
  (e.raiseOnly .valveUnplanned v.val 2 (valvePlace e.table v)).noteMovement

/-- A report taken (R124): the position by its case, with the flag. A QUEUED order whose valve takes a fault by the flag is FAILED
and not withdrawn (R115, R126, R141): the flag acts before a withdrawal, and after the rest of the case
(notes/assumptions/37.md). -/
def Ev.takeReport (e : Ev) (v : ValveId) (pos : Position) (localFlag : Bool) : Ev :=
  let written := e.writePosition v pos
  match e.reportCase v pos with
  | .inFlight => written
  | .restoring p => (written.localControl v localFlag).restoringReport p v pos
  | .held p => (written.heldWatch p v true).localControl v localFlag
  | .closes p => ((written.enterDone p.number v).localControl v localFlag).withdrawOf v .closeValve
  | .unplanned => (written.unplannedMove v).localControl v localFlag
  | .other => (written.localControl v localFlag).withdrawClosed v pos

/-- The position of a late DONE (R120): as a report with the flag clear, but that it leaves the fault as it stands, has no case
4, and changes no order: where a report would withdraw a QUEUED one, the position alone is written
(notes/assumptions/37.md). -/
def Ev.lateReport (e : Ev) (v : ValveId) (pos : Position) : Ev :=
  let written := e.writePosition v pos
  match e.reportCase v pos with
  | .held p => written.heldWatch p v false
  | .unplanned => written.unplannedMove v
  | .inFlight | .restoring _ | .closes _ | .other => written

/-- A report request (R124), from the port of the kind its valve has. Of its flags byte only bit 0 has a meaning (R181); the model
ignores the other bits (its choice, notes/assumptions/63.md). -/
def reportBlock (kind : ValveKind) (valve : Half) (position flags : Byte) (q : Sender) (e : Ev) : Ev :=
  match e.table.presentValve valve with
  | none => e.refuse q .noSuchObject
  | some v =>
    match positionOf position with
    | none => e.refuse q .stateRefused
    | some pos =>
      if e.table.valves[v].kind = kind then (e.ok q).takeReport v pos (flags.getLsbD 0) else e.refuse q .stateRefused

/-! ## Order and crew replies (R118, R123) -/

/-- The order a reply matches: its tag, its valve and its path, in flight (R118, step 4; R123). -/
def Ev.matching (e : Ev) (path : OrderPath) (tag : Byte) (v : ValveId) : Option Order :=
  e.order? (fun o => o.path == path && o.tag == tag.toNat && o.valve == v && o.state.inFlight)

/-- An ORDER ACCEPT that matches: a SENT order is ACCEPTED with its travel deadline (R118). -/
def Ev.acceptOrder (e : Ev) (o : Order) : Ev :=
  if o.state = .sent then
    e.modOrders (fun x => x.tag == o.tag && x.state == .sent) (fun x => some { x with
      state := .accepted, deadline := some (e.after (e.table.valves[o.valve].travel * 1000)) })
  else e

/-- ORDER ACCEPT (R118). -/
def acceptBlock (tag : Byte) (valve : Half) (q : Sender) (e : Ev) : Ev :=
  match e.table.presentValve valve with
  | none => e.refuse q .noSuchObject
  | some v =>
    match e.matching .remote tag v with
    | some o => (e.ok q).acceptOrder o
    | none => e.refuse q .late

/-- CLOSE matches CLOSED and OPEN matches OPEN (R118). -/
def OrderAction.position (a : OrderAction) : Position :=
  match a with
  | .closeValve => .closed
  | .openValve => .opened

/-- A DONE that matches an order (R118). -/
def Ev.doneOrder (e : Ev) (o : Order) (pos : Position) : Ev :=
  if pos = o.action.position then e.completeOrder o pos else e.failOrder o .failed .stuck (some pos)

/-- ORDER DONE and CREW DONE (R118, R120, R123). -/
def doneBlock (path : OrderPath) (tag : Byte) (valve : Half) (position : Byte) (q : Sender) (e : Ev) : Ev :=
  match e.table.presentValve valve with
  | none => e.refuse q .noSuchObject
  | some v =>
    match endPositionOf position with
    | none => e.refuse q .stateRefused
    | some pos =>
      match e.matching path tag v with
      | some o => (e.ok q).doneOrder o pos
      | none => (e.refuse q .late).lateReport v pos

/-- ORDER FAIL and CREW FAIL (R118, R123). -/
def failBlock (path : OrderPath) (tag : Byte) (valve : Half) (reason : Byte) (q : Sender) (e : Ev) : Ev :=
  match e.table.presentValve valve with
  | none => e.refuse q .noSuchObject
  | some v =>
    match reasonOf reason with
    | none => e.refuse q .stateRefused
    | some f =>
      match e.matching path tag v with
      | some o => (e.ok q).failOrder o .failed f none
      | none => e.refuse q .late

/-! ## Deadlines (R119, R123) -/

/-- The order of a tag on a path and in a state whose deadline has been reached. -/
def Ev.overdueOrder (e : Ev) (path : OrderPath) (st : OrderState) (tag : Byte) : Option Order :=
  e.order? (fun o => o.path == path && o.state == st && o.tag == tag.toNat && expired e.now o.deadline)

/-- The accept deadline of a remote order (R119). -/
def acceptDeadlineBlock (tag : Byte) (e : Ev) : Ev :=
  match e.overdueOrder .remote .sent tag with
  | none => e
  | some o => e.failOrder o .failed .comms none

/-- The travel deadline of a remote order (R119). -/
def travelDeadlineBlock (tag : Byte) (e : Ev) : Ev :=
  match e.overdueOrder .remote .accepted tag with
  | none => e
  | some o => e.failOrder o .timedOut .travelTimeout (some .unknown)

/-- The deadline of a crew task (R123). -/
def crewDeadlineBlock (tag : Byte) (e : Ev) : Ev :=
  match e.overdueOrder .crew .sent tag with
  | none => e
  | some o => e.failOrder o .timedOut .travelTimeout (some .unknown)

/-! ## CLEAR FAULT (R126) -/

/-- CLEAR FAULT (R126). -/
def clearFaultBlock (valve : Half) (q : Sender) (e : Ev) : Ev :=
  match e.table.presentValve valve with
  | none => e.refuse q .noSuchObject
  | some v => (e.ok q).setFault v .noFault

/-! ## Meanings -/

/-- The meaning of VALVE_REPORT. -/
def execValveReport (p : Port) (seq : Byte) (valve : Half) (position flags : Byte) (s : State) :
    Host.Outcome State Fault Refusal :=
  .next (request p seq 0x02 (reportBlock .remote valve position flags) s)

/-- The meaning of CREW_VALVE_REPORT. -/
def execCrewValveReport (p : Port) (seq : Byte) (valve : Half) (position flags : Byte) (s : State) :
    Host.Outcome State Fault Refusal :=
  .next (request p seq 0x0E (reportBlock .manual valve position flags) s)

/-- The meaning of ORDER_ACCEPT. -/
def execOrderAccept (p : Port) (seq tag : Byte) (valve : Half) (s : State) : Host.Outcome State Fault Refusal :=
  .next (request p seq 0x03 (acceptBlock tag valve) s)

/-- The meaning of ORDER_DONE. -/
def execOrderDone (p : Port) (seq tag : Byte) (valve : Half) (position : Byte) (s : State) :
    Host.Outcome State Fault Refusal :=
  .next (request p seq 0x04 (doneBlock .remote tag valve position) s)

/-- The meaning of ORDER_FAIL. -/
def execOrderFail (p : Port) (seq tag : Byte) (valve : Half) (reason : Byte) (s : State) :
    Host.Outcome State Fault Refusal :=
  .next (request p seq 0x05 (failBlock .remote tag valve reason) s)

/-- The meaning of ACCEPT_DEADLINE_EXPIRY. -/
def execAcceptDeadlineExpiry (tag : Byte) (s : State) : Host.Outcome State Fault Refusal :=
  .next (event (acceptDeadlineBlock tag) s)

/-- The meaning of TRAVEL_DEADLINE_EXPIRY. -/
def execTravelDeadlineExpiry (tag : Byte) (s : State) : Host.Outcome State Fault Refusal :=
  .next (event (travelDeadlineBlock tag) s)

/-- The meaning of CREW_DONE. -/
def execCrewDone (p : Port) (seq tag : Byte) (valve : Half) (position : Byte) (s : State) :
    Host.Outcome State Fault Refusal :=
  .next (request p seq 0x0C (doneBlock .crew tag valve position) s)

/-- The meaning of CREW_FAIL. -/
def execCrewFail (p : Port) (seq tag : Byte) (valve : Half) (reason : Byte) (s : State) :
    Host.Outcome State Fault Refusal :=
  .next (request p seq 0x0D (failBlock .crew tag valve reason) s)

/-- The meaning of CREW_TASK_DEADLINE_EXPIRY. -/
def execCrewTaskDeadlineExpiry (tag : Byte) (s : State) : Host.Outcome State Fault Refusal :=
  .next (event (crewDeadlineBlock tag) s)

/-- The meaning of CLEAR_FAULT. -/
def execClearFault (p : Port) (seq : Byte) (valve : Half) (s : State) : Host.Outcome State Fault Refusal :=
  .next (request p seq 0x1B (clearFaultBlock valve) s)

end Sys2Proof.Machine
end

