-- ==== Sys2Proof/Machine/Receive.lean ====
section
/-! DEFINITION. The receiver of a link port (R171, R172): the bytes of a line assembled into frames, and a valid frame
taken by its block in the same step. -/

namespace Sys2Proof.Machine

/-! ## The block of a request -/

/-- A request with the block that takes it: where its reply goes, and what the block does. -/
structure Taking where
  sender : Sender
  block : Ev → Ev

/-- The block of each request (R175); none for a command that no frame carries. -/
def taking (i : Instr) : Option Taking :=
  match i with
  | .reading p seq station raw quality => some ⟨⟨p, seq, 0x01⟩, readingBlock station raw quality ⟨p, seq, 0x01⟩⟩
  | .valveReport p seq valve position flags =>
    some ⟨⟨p, seq, 0x02⟩, reportBlock .remote valve position flags ⟨p, seq, 0x02⟩⟩
  | .orderAccept p seq tag valve => some ⟨⟨p, seq, 0x03⟩, acceptBlock tag valve ⟨p, seq, 0x03⟩⟩
  | .orderDone p seq tag valve position => some ⟨⟨p, seq, 0x04⟩, doneBlock .remote tag valve position ⟨p, seq, 0x04⟩⟩
  | .orderFail p seq tag valve reason => some ⟨⟨p, seq, 0x05⟩, failBlock .remote tag valve reason ⟨p, seq, 0x05⟩⟩
  | .call p seq ref segment grade place => some ⟨⟨p, seq, 0x08⟩, callBlock ref segment grade place ⟨p, seq, 0x08⟩⟩
  | .callUpdate p seq ref state => some ⟨⟨p, seq, 0x09⟩, callUpdateBlock ref state ⟨p, seq, 0x09⟩⟩
  | .madeSafe p seq incident => some ⟨⟨p, seq, 0x0A⟩, madeSafeBlock incident ⟨p, seq, 0x0A⟩⟩
  | .relightReport p seq record segment count =>
    some ⟨⟨p, seq, 0x0B⟩, relightBlock record segment count ⟨p, seq, 0x0B⟩⟩
  | .crewDone p seq tag valve position => some ⟨⟨p, seq, 0x0C⟩, doneBlock .crew tag valve position ⟨p, seq, 0x0C⟩⟩
  | .crewFail p seq tag valve reason => some ⟨⟨p, seq, 0x0D⟩, failBlock .crew tag valve reason ⟨p, seq, 0x0D⟩⟩
  | .crewValveReport p seq valve position flags =>
    some ⟨⟨p, seq, 0x0E⟩, reportBlock .manual valve position flags ⟨p, seq, 0x0E⟩⟩
  | .writeSegment p seq segment presence zone customers =>
    some ⟨⟨p, seq, 0x10⟩, writeSegmentBlock segment presence zone customers ⟨p, seq, 0x10⟩⟩
  | .writeValve p seq valve presence sideA sideB kind normal noClose travel =>
    some ⟨⟨p, seq, 0x11⟩, writeValveBlock valve presence sideA sideB kind normal noClose travel ⟨p, seq, 0x11⟩⟩
  | .writeFeed p seq feed presence minimum deadband =>
    some ⟨⟨p, seq, 0x12⟩, writeFeedBlock feed presence minimum deadband ⟨p, seq, 0x12⟩⟩
  | .writeStation p seq station presence location zero span fullScale shift tier ll l h hh deadband fall =>
    some ⟨⟨p, seq, 0x13⟩, writeStationBlock station presence location
      ⟨zero, span, fullScale, shift, tier, ⟨ll.toNat, l.toNat, h.toNat, hh.toNat, deadband.toNat, fall.toNat⟩⟩ ⟨p, seq, 0x13⟩⟩
  | .writePort p seq port role rate => some ⟨⟨p, seq, 0x14⟩, writePortBlock port role rate ⟨p, seq, 0x14⟩⟩
  | .writeParameter p seq parameter value => some ⟨⟨p, seq, 0x15⟩, writeParameterBlock parameter value ⟨p, seq, 0x15⟩⟩
  | .store p seq => some ⟨⟨p, seq, 0x16⟩, storeBlock ⟨p, seq, 0x16⟩⟩
  | .start p seq => some ⟨⟨p, seq, 0x17⟩, startBlock ⟨p, seq, 0x17⟩⟩
  | .lock p seq => some ⟨⟨p, seq, 0x18⟩, lockBlock ⟨p, seq, 0x18⟩⟩
  | .limitsWrite p seq station ll l h hh deadband fall =>
    some ⟨⟨p, seq, 0x19⟩, limitsWriteBlock station ⟨ll.toNat, l.toNat, h.toNat, hh.toNat, deadband.toNat, fall.toNat⟩ ⟨p, seq, 0x19⟩⟩
  | .collect p seq station => some ⟨⟨p, seq, 0x1A⟩, collectBlock station ⟨p, seq, 0x1A⟩⟩
  | .clearFault p seq valve => some ⟨⟨p, seq, 0x1B⟩, clearFaultBlock valve ⟨p, seq, 0x1B⟩⟩
  | .plan p seq incident => some ⟨⟨p, seq, 0x20⟩, planBlock incident ⟨p, seq, 0x20⟩⟩
  | .authorise p seq number stage => some ⟨⟨p, seq, 0x21⟩, authoriseBlock number stage ⟨p, seq, 0x21⟩⟩
  | .cancel p seq number => some ⟨⟨p, seq, 0x22⟩, cancelBlock number ⟨p, seq, 0x22⟩⟩
  | .widen p seq number => some ⟨⟨p, seq, 0x23⟩, widenBlock number ⟨p, seq, 0x23⟩⟩
  | .confirm p seq number => some ⟨⟨p, seq, 0x24⟩, confirmBlock number ⟨p, seq, 0x24⟩⟩
  | .restore p seq number => some ⟨⟨p, seq, 0x25⟩, restoreBlock number ⟨p, seq, 0x25⟩⟩
  | .closeIncident p seq incident => some ⟨⟨p, seq, 0x26⟩, closeIncidentBlock incident ⟨p, seq, 0x26⟩⟩
  | .closeOutage p seq record => some ⟨⟨p, seq, 0x27⟩, closeOutageBlock record ⟨p, seq, 0x27⟩⟩
  | .ack p seq kind object => some ⟨⟨p, seq, 0x28⟩, ackBlock kind object ⟨p, seq, 0x28⟩⟩
  | .silence p seq => some ⟨⟨p, seq, 0x2A⟩, silenceBlock ⟨p, seq, 0x2A⟩⟩
  | .linkReset p seq => some ⟨⟨p, seq, 0x30⟩, linkResetBlock ⟨p, seq, 0x30⟩⟩
  | .readSegment p seq segment => some ⟨⟨p, seq, 0x31⟩, readSegmentBlock segment ⟨p, seq, 0x31⟩⟩
  | .readValve p seq valve => some ⟨⟨p, seq, 0x32⟩, readValveBlock valve ⟨p, seq, 0x32⟩⟩
  | .readStation p seq station => some ⟨⟨p, seq, 0x33⟩, readStationBlock station ⟨p, seq, 0x33⟩⟩
  | .readPlan p seq number list first => some ⟨⟨p, seq, 0x34⟩, readPlanBlock number list first ⟨p, seq, 0x34⟩⟩
  | .readIncident p seq incident first => some ⟨⟨p, seq, 0x35⟩, readIncidentBlock incident first ⟨p, seq, 0x35⟩⟩
  | .readCall p seq ref => some ⟨⟨p, seq, 0x36⟩, readCallBlock ref ⟨p, seq, 0x36⟩⟩
  | .readOutage p seq record list first => some ⟨⟨p, seq, 0x37⟩, readOutageBlock record list first ⟨p, seq, 0x37⟩⟩
  | .readAlarms p seq first => some ⟨⟨p, seq, 0x38⟩, readAlarmsBlock first ⟨p, seq, 0x38⟩⟩
  | .readPort p seq port => some ⟨⟨p, seq, 0x39⟩, readPortBlock port ⟨p, seq, 0x39⟩⟩
  | .subscribe p seq _ districts => some ⟨⟨p, seq, 0x29⟩, subscribeBlock districts ⟨p, seq, 0x29⟩⟩
  | .deviceReset _ => none
  | .receiveByte _ _ => none
  | .gapDeadlineExpiry _ => none
  | .livenessDeadlineExpiry _ => none
  | .queueEntryFreed _ => none
  | .stalenessDeadlineExpiry _ => none
  | .acceptDeadlineExpiry _ => none
  | .travelDeadlineExpiry _ => none
  | .crewTaskDeadlineExpiry _ => none
  | .hypotheticalResult => none
  | .windowDeadlineExpiry _ => none
  | .proofDeadlineExpiry _ => none
  | .publication => none
  | .publicationSuppression => none
  | .publicationOutages => none
  | .publicationProving => none
  | .frameStart => none
  | .storeEnd => none

/-- A reply code for a body that is no request (R175, tests 2 and 3). -/
def bodyRefusal (f : BodyFault) : ReplyCode :=
  match f with
  | .unknownKind => .unknownKind
  | .badLength => .badLength

/-- Where the reply to a body goes: its SEQ and its KIND. -/
def senderOf (p : Port) (body : List Byte) : Sender :=
  match body with
  | kind :: seq :: _ => ⟨p, seq, kind⟩
  | _ => ⟨p, 0, 0⟩

/-- A valid frame's body taken (R171, R173, R175). -/
def takeBody (p : Port) (body : List Byte) (s : State) : State :=
  match decodeBody p body with
  | .error f => takeFrame (senderOf p body) (some (bodyRefusal f)) (fun e => e) s
  | .ok i =>
    match taking i with
    | none => s
    | some t => takeFrame t.sender none t.block s

/-! ## The receiver -/

/-- What a byte does to the receiver (R171). -/
inductive Received where
  /-- The receiver takes a new state. -/
  | quiet (r : Receiver)
  /-- A LEN out of range: the byte is examined again as a HUNTING byte. -/
  | badLength
  /-- A frame whose CRC agrees. -/
  | frame (body : List Byte)
  /-- A frame whose CRC does not agree, with the bytes held after its SYNC. -/
  | badCrc (held : List Byte)
deriving DecidableEq, Repr

/-- The second CRC byte: the frame is tested (R171). -/
def testFrame (len : Byte) (held : List Byte) (hi lo : Byte) : Received :=
  if crc (len :: held) = half hi lo then .frame held else .badCrc (len :: held ++ [hi, lo])

/-- One byte examined in a receive state (R171). -/
def receive (r : Receiver) (b : Byte) : Received :=
  match r with
  | .hunting => .quiet (if b = 0xC5 then .length else .hunting)
  | .length => if 2 ≤ b.toNat ∧ b.toNat ≤ 250 then .quiet (.body b []) else .badLength
  | .body len held =>
    if (held ++ [b]).length = len.toNat then .quiet (.check len (held ++ [b]) none) else .quiet (.body len (held ++ [b]))
  | .check len held none => .quiet (.check len held (some b))
  | .check len held (some hi) => testFrame len held hi b

/-- One port changed, outside any block's event. -/
def State.modPort (s : State) (p : Port) (f : LinkPort → LinkPort) : State := { s with ports := upd s.ports p f }

/-- The port after a byte that ends no frame. -/
def LinkPort.quiet (l : LinkPort) (r : Receiver) (rest : List Byte) : LinkPort :=
  { l with receiver := r, backlog := rest }
/-- The port after a LEN out of range (R171). -/
def LinkPort.badLength (l : LinkPort) (b : Byte) (rest : List Byte) : LinkPort :=
  { l with receiver := .hunting, backlog := b :: rest, lengthCount := satInc 65535 l.lengthCount }
/-- The port after a frame whose CRC does not agree: its bytes are examined again before any other (R171). -/
def LinkPort.badCrc (l : LinkPort) (held rest : List Byte) : LinkPort :=
  { l with receiver := .hunting, backlog := held ++ rest, crcCount := satInc 65535 l.crcCount }

/-- The first byte of the backlog examined, with all that a frame it completes does. -/
def examine (p : Port) (b : Byte) (rest : List Byte) (s : State) : State :=
  match receive s.ports[p].receiver b with
  | .quiet r => s.modPort p (fun l => l.quiet r rest)
  | .badLength => s.modPort p (fun l => l.badLength b rest)
  | .badCrc held => s.modPort p (fun l => l.badCrc held rest)
  | .frame body => takeBody p body (s.modPort p (fun l => l.quiet .hunting rest))

/-- Every byte of the backlog examined. A failed frame gives back fewer bytes than it took, so no byte is examined more
than 254 times and the fuel of `receiveByte` covers every case. -/
def examineAll (p : Port) : Nat → State → State
  | 0, s => s
  | k + 1, s =>
    match s.ports[p].backlog with
    | [] => s
    | b :: rest => examineAll p k (examine p b rest s)

/-- The gap deadline after a byte of the line (R172). -/
def LinkPort.setGap (l : LinkPort) (now : Stamp) : LinkPort :=
  { l with gap := if l.receiver = .hunting then none else some (now + BitVec.ofNat 32 Config.gapMs) }

/-- A byte taken on a port whose working role is not UNUSED (R171, R172). -/
def takeByte (p : Port) (b : Byte) (s : State) : State :=
  (examineAll p 65536 (s.modPort p (fun l => { l with backlog := l.backlog ++ [b] }))).modPort p (fun l => l.setGap s.now)

/-- The meaning of RECEIVE_BYTE. An UNUSED port discards every byte (R171). -/
def execReceiveByte (p : Port) (b : Byte) (s : State) : Host.Outcome State Fault Refusal :=
  .next (if s.ports[p].role = .unused then s else takeByte p b s)

end Sys2Proof.Machine
end

