-- ==== Sys2Proof/Machine/Reset.lean ====
section
/-! DEFINITION. Device reset (R13): the mode and the table chosen from the Configuration Store, and every block returned
to its device reset values. -/

namespace Sys2Proof.Machine

/-- The store holds a copy that a STORE completed and that is locked, and the unlock line is inactive (R13). -/
def ConfigStore.goesOperating (c : ConfigStore) (unlock : Bool) : Bool :=
  c.valid && c.lock && !unlock && c.copy.firstFailure.isNone

/-- The mode after a device reset (R13). -/
def ConfigStore.resetMode (c : ConfigStore) (unlock : Bool) : Mode :=
  if c.goesOperating unlock then .operating else .commissioning

/-- The table after a device reset (R13). -/
def ConfigStore.resetTable (c : ConfigStore) : Table := if c.valid then c.copy else Table.empty

/-- The store after a device reset: a running STORE has ended, and the lock mark is cleared unless the part enters
OPERATING (R13, R17, R18). -/
def ConfigStore.afterReset (c : ConfigStore) (unlock : Bool) : ConfigStore :=
  { c with lock := c.goesOperating unlock, state := .idle }

/-- A station's live state after device reset, its staleness deadline armed from time 0 with its configured tier (R22,
R34). -/
def stationAfterReset (r : StationStatic) (framePeriod : Nat) : StationLive :=
  { StationLive.reset r.limits with
    staleness := if r.present then some (BitVec.ofNat 32 (stalenessSpan r.tier framePeriod)) else none }

/-- Every block at its device reset values over a table (R2, R5, R7, R8, R11, R20 to R22, R45, R56, R72 to R74, R81, R90,
R91, R111, R145, R146, R156, R169). The commands that wait are outside the part and stay. -/
def resetWith (pending : List Instr) (t : Table) (store : ConfigStore) (mode : Mode) : State where
  pending := pending
  events := 0
  now := 0
  frameNumber := 0
  nextFrame := BitVec.ofNat 32 t.params.framePeriod
  mode := mode
  table := t
  store := store
  revision := 0
  segLive := Vector.replicate 256 SegLive.reset
  valveLive := mapTable (fun _ v => ValveLive.reset v.kind v.normal) t.valves
  feedState := Vector.replicate 64 .doubtful
  stationLive := mapTable (fun _ r => stationAfterReset r t.params.framePeriod) t.stations
  poll := ⟨mapTable (fun _ r => r.tier) t.stations, Vector.replicate 128 false, none, 0, 0⟩
  tracer := Tracer.reset
  calls := CallRegister.reset
  planner := Planner.reset
  switching := Switching.reset
  outages := OutageRegister.reset
  alarms := AlarmList.reset
  ports := mapTable (fun _ r => LinkPort.reset r) t.ports

/-- The state a device reset leaves, but for the pass it may trigger. -/
def State.deviceReset (s : State) (unlock : Bool) : State :=
  resetWith s.pending s.store.resetTable (s.store.afterReset unlock) (s.store.resetMode unlock)

/-- The end of a device reset: a supply pass is triggered where the part has entered OPERATING (R13, R62). -/
def State.resetPass (s : State) : State :=
  match s.mode with
  | .commissioning => s
  | .operating => event Ev.triggerPass s

/-- The meaning of DEVICE_RESET. -/
def execDeviceReset (unlock : Bool) (s : State) : Host.Outcome State Fault Refusal :=
  .next (s.deviceReset unlock).resetPass

end Sys2Proof.Machine
end

