-- ==== Sys2Proof/Machine/Dispatch.lean ====
section
/-! DEFINITION. One arm for each command: its meaning. -/

namespace Sys2Proof.Machine

/-- The effect of a command on the part. -/
def exec (i : Instr) (s : State) : Host.Outcome State Fault Refusal :=
  match i with
  | .deviceReset unlock => Sys2Proof.Machine.execDeviceReset unlock s
  | .receiveByte p b => Sys2Proof.Machine.execReceiveByte p b s
  | .gapDeadlineExpiry p => Sys2Proof.Machine.execGapDeadlineExpiry p s
  | .livenessDeadlineExpiry p => Sys2Proof.Machine.execLivenessDeadlineExpiry p s
  | .queueEntryFreed p => Sys2Proof.Machine.execQueueEntryFreed p s
  | .linkReset p seq => Sys2Proof.Machine.execLinkReset p seq s
  | .reading p seq station raw quality => Sys2Proof.Machine.execReading p seq station raw quality s
  | .stalenessDeadlineExpiry station => Sys2Proof.Machine.execStalenessDeadlineExpiry station s
  | .valveReport p seq valve position flags => Sys2Proof.Machine.execValveReport p seq valve position flags s
  | .crewValveReport p seq valve position flags => Sys2Proof.Machine.execCrewValveReport p seq valve position flags s
  | .orderAccept p seq tag valve => Sys2Proof.Machine.execOrderAccept p seq tag valve s
  | .orderDone p seq tag valve position => Sys2Proof.Machine.execOrderDone p seq tag valve position s
  | .orderFail p seq tag valve reason => Sys2Proof.Machine.execOrderFail p seq tag valve reason s
  | .acceptDeadlineExpiry tag => Sys2Proof.Machine.execAcceptDeadlineExpiry tag s
  | .travelDeadlineExpiry tag => Sys2Proof.Machine.execTravelDeadlineExpiry tag s
  | .crewDone p seq tag valve position => Sys2Proof.Machine.execCrewDone p seq tag valve position s
  | .crewFail p seq tag valve reason => Sys2Proof.Machine.execCrewFail p seq tag valve reason s
  | .crewTaskDeadlineExpiry tag => Sys2Proof.Machine.execCrewTaskDeadlineExpiry tag s
  | .call p seq ref segment grade place => Sys2Proof.Machine.execCall p seq ref segment grade place s
  | .callUpdate p seq ref state => Sys2Proof.Machine.execCallUpdate p seq ref state s
  | .madeSafe p seq incident => Sys2Proof.Machine.execMadeSafe p seq incident s
  | .closeIncident p seq incident => Sys2Proof.Machine.execCloseIncident p seq incident s
  | .plan p seq incident => Sys2Proof.Machine.execPlan p seq incident s
  | .hypotheticalResult => Sys2Proof.Machine.execHypotheticalResult s
  | .authorise p seq number stage => Sys2Proof.Machine.execAuthorise p seq number stage s
  | .windowDeadlineExpiry number => Sys2Proof.Machine.execWindowDeadlineExpiry number s
  | .cancel p seq number => Sys2Proof.Machine.execCancel p seq number s
  | .widen p seq number => Sys2Proof.Machine.execWiden p seq number s
  | .proofDeadlineExpiry number => Sys2Proof.Machine.execProofDeadlineExpiry number s
  | .confirm p seq number => Sys2Proof.Machine.execConfirm p seq number s
  | .restore p seq number => Sys2Proof.Machine.execRestore p seq number s
  | .publication => Sys2Proof.Machine.execPublication s
  | .publicationSuppression => Sys2Proof.Machine.execPublicationSuppression s
  | .publicationOutages => Sys2Proof.Machine.execPublicationOutages s
  | .publicationProving => Sys2Proof.Machine.execPublicationProving s
  | .relightReport p seq record segment count => Sys2Proof.Machine.execRelightReport p seq record segment count s
  | .closeOutage p seq record => Sys2Proof.Machine.execCloseOutage p seq record s
  | .frameStart => Sys2Proof.Machine.execFrameStart s
  | .store p seq => Sys2Proof.Machine.execStore p seq s
  | .storeEnd => Sys2Proof.Machine.execStoreEnd s
  | .start p seq => Sys2Proof.Machine.execStart p seq s
  | .lock p seq => Sys2Proof.Machine.execLock p seq s
  | .writeSegment p seq segment presence zone customers => Sys2Proof.Machine.execWriteSegment p seq segment presence zone customers s
  | .writeValve p seq valve presence sideA sideB kind normal noClose travel => Sys2Proof.Machine.execWriteValve p seq valve presence sideA sideB kind normal noClose travel s
  | .writeFeed p seq feed presence minimum deadband => Sys2Proof.Machine.execWriteFeed p seq feed presence minimum deadband s
  | .writeStation p seq station presence location zero span fullScale shift tier ll l h hh deadband fall => Sys2Proof.Machine.execWriteStation p seq station presence location zero span fullScale shift tier ll l h hh deadband fall s
  | .writePort p seq port role rate => Sys2Proof.Machine.execWritePort p seq port role rate s
  | .writeParameter p seq parameter value => Sys2Proof.Machine.execWriteParameter p seq parameter value s
  | .limitsWrite p seq station ll l h hh deadband fall => Sys2Proof.Machine.execLimitsWrite p seq station ll l h hh deadband fall s
  | .collect p seq station => Sys2Proof.Machine.execCollect p seq station s
  | .clearFault p seq valve => Sys2Proof.Machine.execClearFault p seq valve s
  | .ack p seq kind object => Sys2Proof.Machine.execAck p seq kind object s
  | .subscribe p seq count districts => Sys2Proof.Machine.execSubscribe p seq count districts s
  | .silence p seq => Sys2Proof.Machine.execSilence p seq s
  | .readSegment p seq segment => Sys2Proof.Machine.execReadSegment p seq segment s
  | .readValve p seq valve => Sys2Proof.Machine.execReadValve p seq valve s
  | .readStation p seq station => Sys2Proof.Machine.execReadStation p seq station s
  | .readPlan p seq number list first => Sys2Proof.Machine.execReadPlan p seq number list first s
  | .readIncident p seq incident first => Sys2Proof.Machine.execReadIncident p seq incident first s
  | .readCall p seq ref => Sys2Proof.Machine.execReadCall p seq ref s
  | .readOutage p seq record list first => Sys2Proof.Machine.execReadOutage p seq record list first s
  | .readAlarms p seq first => Sys2Proof.Machine.execReadAlarms p seq first s
  | .readPort p seq port => Sys2Proof.Machine.execReadPort p seq port s

end Sys2Proof.Machine
end

