-- ==== Sys2Proof/Machine/Time.lean ====
section
/-! DEFINITION. The passing of a millisecond (R20): station time advances, and the expiry of each deadline it reaches
joins the commands that wait. The table has no row for this; it is what a step does when no command waits. -/

namespace Sys2Proof.Machine

/-- A deadline falls on a station time. -/
def fallsOn (now : Stamp) (d : Option Stamp) : Bool := d == some now

/-- The expiries of one port's deadlines. -/
def portExpiries (now : Stamp) (p : Port) (l : LinkPort) : List Instr :=
  (if fallsOn now l.gap then [.gapDeadlineExpiry p] else []) ++
    (if fallsOn now l.liveness then [.livenessDeadlineExpiry p] else [])

/-- The expiry of an order's deadline, by its path and state (R119, R123). -/
def orderExpiry (now : Stamp) (o : Order) : List Instr :=
  if fallsOn now o.deadline && o.state.nonFinal then
    match o.path, o.state with
    | .crew, _ => [.crewTaskDeadlineExpiry (BitVec.ofNat 8 o.tag)]
    | .remote, .accepted => [.travelDeadlineExpiry (BitVec.ofNat 8 o.tag)]
    | .remote, _ => [.acceptDeadlineExpiry (BitVec.ofNat 8 o.tag)]
  else []

/-- The expiries of a plan's deadlines (R102, R136). -/
def planExpiries (now : Stamp) (p : Plan) : List Instr :=
  (if fallsOn now p.window then [.windowDeadlineExpiry (BitVec.ofNat 16 p.number)] else []) ++
    (if fallsOn now p.proofDeadline then [.proofDeadlineExpiry (BitVec.ofNat 16 p.number)] else [])

/-- The expiries that fall on the station time now: ports, frame start, stations, orders, plans. -/
def State.expiries (s : State) : List Instr :=
  portsInOrder.flatMap (fun p => portExpiries s.now p s.ports[p]) ++
    (if s.nextFrame = s.now then [.frameStart] else []) ++
    (idsWhere s.stationLive (fun l => fallsOn s.now l.staleness)).map (fun i => .stalenessDeadlineExpiry i) ++
    (s.switching.records.toList.filterMap id).flatMap (fun o => orderExpiry s.now o) ++
    s.planner.plans.flatMap (fun p => planExpiries s.now p)

/-- Station time one millisecond on (R20). -/
def State.advance (s : State) : State := { s with now := s.now + 1 }

/-- One millisecond passes. -/
def State.tick (s : State) : State := { s.advance with pending := s.pending ++ s.advance.expiries }

end Sys2Proof.Machine
end

