-- ==== Sys2Proof/Safety.lean ====
section
/-! DEFINITION. The terms the statements use: the laws the manual gives of every state, what a command leaves as it was,
when a port takes a request, and the paths of gas that a supply state is about. -/

namespace Sys2Proof.Machine

/-! ## Laws of every state -/

/-- The span of a station record never takes its top count above 4,095 (R6). -/
def StationStatic.spanOk (r : StationStatic) : Bool := decide (r.zero + r.span ≤ 4095)

/-- Every station of a table has a span that R6 allows. -/
def Table.spansOk (t : Table) : Bool := t.stations.toList.all StationStatic.spanOk

/-- The law of R6 for the table in force and for the copy the store holds. -/
def State.spansOk (s : State) : Bool := s.table.spansOk && s.store.copy.spansOk

/-- A subscription list: at most four districts, each 0 to 15, none twice (R156, R164). -/
def districtListOk (ds : List Nat) : Bool :=
  decide (ds.length ≤ 4) && ds.all (fun d => decide (d ≤ 15)) && decide ds.Nodup

/-- Every port's subscriptions are such a list. -/
def State.subscriptionsOk (s : State) : Bool := s.alarms.subscriptions.toList.all districtListOk

/-- At most 127 general alarm records, no two of one kind and object (R156, R158). -/
def State.alarmsOk (s : State) : Bool :=
  decide (s.alarms.general.length ≤ 127) && decide (s.alarms.general.map (fun r => (r.kind, r.object))).Nodup

/-- The entry held on a port for the reply of a running STORE (R17). -/
def State.owed (s : State) (p : Port) : Nat :=
  match s.store.state with
  | .writing (some (q, _)) => if q = p then 1 else 0
  | _ => 0

/-- Every outbound queue uses at most 32 entries, and between events only a running STORE holds one empty (R17, R169). -/
abbrev State.queuesOk (s : State) : Prop := ∀ p : Port, s.ports[p].entries ≤ 32 ∧ s.ports[p].held = s.owed p

/-- No two non-final orders have one tag, and every tag is one byte (R112). -/
def State.tagsOk (s : State) : Prop :=
  ∀ (i j : Fin 64) (o o' : Order), s.switching.records[i] = some o → s.switching.records[j] = some o' →
    o.tag < 256 ∧ (o.state.nonFinal = true → o'.state.nonFinal = true → o.tag = o'.tag → i = j)

/-- The Call Register is in order (R72 to R74, R77, R80): no two calls of one reference and no two incidents of one number or
opening sequence, at most 64 and 16 of them; every call's incident is held; a segment list holds at most 8 segments, none
twice; every grade is the one R80 gives. -/
def State.callsOk (s : State) : Bool :=
  let c := s.calls
  decide (c.calls.map (fun x => x.ref)).Nodup && decide (c.incidents.map (fun i => i.number)).Nodup &&
    decide (c.incidents.map (fun i => i.sequence)).Nodup && decide (c.calls.length ≤ 64) &&
    decide (c.incidents.length ≤ 16) && c.incidents.all (fun i => decide (i.sequence ≤ c.openingSequence)) &&
    c.calls.all (fun x => x.incident.all (fun n => c.incidents.any (fun i => i.number == n))) &&
    c.incidents.all (fun i => decide (i.segments.length ≤ 8) && decide i.segments.Nodup) &&
    c.incidents.all (fun i => i.grade == c.gradeFor i)

/-- A plan that the planning engine may be at work on (R93). -/
def PlanState.computes (st : PlanState) : Bool := st == .computing || st == .replanning

/-- The numbers of the plans that wait for the planning engine or that it runs for. -/
def Planner.atWork (pl : Planner) : List Nat :=
  match pl.engine with
  | .running r => r.plan :: pl.queue
  | _ => pl.queue

/-- The plan table is in order (R90, R91, R93, R132): at most eight plans, no two of one number, and a last number of 16 bits;
every number at work is that of a held plan in COMPUTING or REPLANNING, and none is there twice; and only a plan in EXECUTING
awaits a publication. -/
def State.plansOk (s : State) : Bool :=
  decide (s.planner.plans.length ≤ 8) && decide (s.planner.plans.map (fun p => p.number)).Nodup &&
    decide (s.planner.lastPlan ≤ 65535) && decide s.planner.atWork.Nodup &&
    s.planner.atWork.all (fun n => s.planner.plans.any (fun p => p.number == n && p.state.computes)) &&
    s.planner.plans.all (fun p => !p.awaiting || p.state == .executing)

/-- In COMMISSIONING there are no plans, calls, incidents or orders (R14, R120). -/
abbrev State.commissioningQuiet (s : State) : Prop :=
  s.mode = .commissioning →
    s.planner.plans = [] ∧ s.calls.calls = [] ∧ s.calls.incidents = [] ∧ ∀ i : Fin 64, s.switching.records[i] = none

/-! ## What a command leaves -/

/-- What only the table writes, START, STORE, LOCK, SUBSCRIBE, PUBLICATION, FRAME_START, DEVICE_RESET and the passing of time
change: the commands that wait, the time and the frame counter, the mode, the table, the copy and marks of the store, the
published states, the subscriptions and the working roles and rates. -/
structure Untouched (s t : State) : Prop where
  pending : t.pending = s.pending
  now : t.now = s.now
  frameNumber : t.frameNumber = s.frameNumber
  nextFrame : t.nextFrame = s.nextFrame
  mode : t.mode = s.mode
  table : t.table = s.table
  copy : t.store.copy = s.store.copy
  valid : t.store.valid = s.store.valid
  lock : t.store.lock = s.store.lock
  segLive : t.segLive = s.segLive
  subscriptions : t.alarms.subscriptions = s.alarms.subscriptions
  roles : ∀ p : Port, t.ports[p].role = s.ports[p].role
  rates : ∀ p : Port, t.ports[p].rate = s.ports[p].rate

/-- No valve but `v` has another position or fault. -/
def otherValvesKept (v : ValveId) (s t : State) : Prop :=
  ∀ w : ValveId, w ≠ v → t.valveLive[w].position = s.valveLive[w].position ∧ t.valveLive[w].fault = s.valveLive[w].fault

/-- No valve has another position or fault. -/
def valvesKept (s t : State) : Prop :=
  ∀ w : ValveId, t.valveLive[w].position = s.valveLive[w].position ∧ t.valveLive[w].fault = s.valveLive[w].fault

/-- Stations, feeds and outage records are as they were. -/
def fieldKept (s t : State) : Prop :=
  t.stationLive = s.stationLive ∧ t.feedState = s.feedState ∧ t.outages.records = s.outages.records

/-! ## Deadlines -/

/-- A command is the expiry of a deadline that falls on a station time (R20): the gap and liveness deadlines of the ports,
the frame start, the staleness deadlines, the deadlines of non-final orders and those of the plans. -/
def State.fallsDue (s : State) (time : Stamp) (c : Instr) : Prop :=
  match c with
  | .gapDeadlineExpiry p => s.ports[p].gap = some time
  | .livenessDeadlineExpiry p => s.ports[p].liveness = some time
  | .frameStart => s.nextFrame = time
  | .stalenessDeadlineExpiry i => s.stationLive[i].staleness = some time
  | .acceptDeadlineExpiry tag => ∃ o, some o ∈ s.switching.records.toList ∧ o.deadline = some time ∧ o.path = .remote ∧
      (o.state = .queued ∨ o.state = .sent) ∧ tag = BitVec.ofNat 8 o.tag
  | .travelDeadlineExpiry tag => ∃ o, some o ∈ s.switching.records.toList ∧ o.deadline = some time ∧ o.path = .remote ∧
      o.state = .accepted ∧ tag = BitVec.ofNat 8 o.tag
  | .crewTaskDeadlineExpiry tag => ∃ o, some o ∈ s.switching.records.toList ∧ o.deadline = some time ∧ o.path = .crew ∧
      o.state.nonFinal = true ∧ tag = BitVec.ofNat 8 o.tag
  | .windowDeadlineExpiry n => ∃ p ∈ s.planner.plans, p.window = some time ∧ n = BitVec.ofNat 16 p.number
  | .proofDeadlineExpiry n => ∃ p ∈ s.planner.plans, p.proofDeadline = some time ∧ n = BitVec.ofNat 16 p.number
  | _ => False

/-! ## Requests -/

/-- The port is UP, its working role permits the request, and its queue has a free entry (R175). -/
def State.ready (s : State) (p : Port) (kind : Byte) : Bool :=
  s.ports[p].state == .up && s.ports[p].role.permits kind && s.ports[p].hasRoom

/-- The state after a valid frame has reached the liveness of a port that is UP (R173). -/
def State.heard (s : State) (p : Port) : State :=
  { s with
    events := s.events + 1
    ports := upd s.ports p (fun l => { l with
      validCount := satInc 65535 l.validCount
      liveness := some (s.now + BitVec.ofNat 32 (s.table.params.silence * 1000)) }) }

/-- The state after a request that changes nothing but its port's queue: its frame heard, and the reply at the end of the
queue (R178). -/
def State.answered (s : State) (q : Sender) (code : ReplyCode) (result : List Byte) : State :=
  { s.heard q.port with
    events := s.events + 2
    ports := upd (s.heard q.port).ports q.port (fun l => l.push (replyBody q.seq q.kind code result)) }

/-- From `s` to `t` every port is as it was but for frames at the end of its queue, its drop count and its alarm-resync
mark (R176). -/
def portsGrow (s t : State) : Prop :=
  ∀ p : Port, ∃ more drops mark, t.ports[p] = { s.ports[p] with
    queue := s.ports[p].queue ++ more, dropCount := drops, resyncMark := mark }

/-- A notice for every port that meets a test: put on its queue, or dropped and counted where no entry is free (R176). -/
def State.tell (s : State) (test : LinkPort → Bool) (body : List Byte) : State :=
  { s with ports := s.ports.map (fun l =>
      if test l then (if l.hasRoom then l.push body else { l with dropCount := satInc 65535 l.dropCount }) else l) }

/-- The reply stands in the queue of its port right behind what was there. -/
def repliedNext (s t : State) (q : Sender) (code : ReplyCode) (result : List Byte) : Prop :=
  s.ports[q.port].queue ++ [replyBody q.seq q.kind code result] <+: t.ports[q.port].queue

/-- The event of a request as its block begins: the frame heard and an entry held for the reply (R175). -/
def State.atBlock (s : State) (p : Port) : Ev := (s.heard p).begin.holdEntry p

end Sys2Proof.Machine

namespace Sys2Proof

/-- The requests that are refused in COMMISSIONING (R14). -/
def Instr.operatingOnly (i : Instr) : Bool :=
  match i with
  | .call _ _ _ _ _ _ | .callUpdate _ _ _ _ | .madeSafe _ _ _ | .closeIncident _ _ _ | .plan _ _ _
  | .authorise _ _ _ _ | .cancel _ _ _ | .widen _ _ _ | .confirm _ _ _ | .restore _ _ _ | .relightReport _ _ _ _ _
  | .closeOutage _ _ _ | .lock _ _ => true
  | _ => false

/-- The six table writes (R15). -/
def Instr.writesTable (i : Instr) : Bool :=
  match i with
  | .writeSegment _ _ _ _ _ _ | .writeValve _ _ _ _ _ _ _ _ _ _ | .writeFeed _ _ _ _ _ _
  | .writeStation _ _ _ _ _ _ _ _ _ _ _ _ _ _ _ _ | .writePort _ _ _ _ _ | .writeParameter _ _ _ _ => true
  | _ => false

/-- START and STORE (R16, R17). -/
def Instr.startsOrStores (i : Instr) : Bool :=
  match i with
  | .start _ _ | .store _ _ => true
  | _ => false

end Sys2Proof

namespace Sys2Proof.Machine

/-! ## Passes -/

/-- A published pass is triggered (R62, R63): on an IDLE engine it starts with a snapshot of the network as the event
leaves it; on an engine that runs, the rerun mark is set. Nothing else of the tracer but its waiting request moves. -/
def passFollows (s t : State) : Prop :=
  t.tracer = { s.tracer with
    engine := if s.tracer.engine = .idle then .publishing { t.begin.snapshot with order := t.events } else s.tracer.engine
    rerun := decide (s.tracer.engine ≠ .idle)
    waiting := t.tracer.waiting }

/-- A segment to which gas can come from some feeds: a path of one link or more that begins at a feed and never passes
through one (R58, R59). `link` says which two sides a link joins. -/
inductive Fed (link : Side → Side → Prop) (feed : FeedId → Prop) : SegId → Prop
  | first {f : FeedId} {i : SegId} (hf : feed f) (h : link (.feed f) (.seg i)) : Fed link feed i
  | next {j i : SegId} (hj : Fed link feed j) (h : link (.seg j) (.seg i)) : Fed link feed i

/-- A valve joins two sides, whichever of them is its side A. -/
def joins (sideA sideB a b : Side) : Prop := (sideA = a ∧ sideB = b) ∨ (sideA = b ∧ sideB = a)

/-- Two sides are joined in a snapshot by an edge (R57) whose position meets a test. -/
def Snapshot.carries (s : Snapshot) (pos : Position → Prop) (a b : Side) : Prop :=
  ∃ v ∈ s.valves, pos v.position ∧ joins v.sideA v.sideB a b ∧ s.hasSide v.sideA = true ∧ s.hasSide v.sideB = true ∧
    ¬(v.sideA.isFeed = true ∧ v.sideB.isFeed = true) ∧ v.sideA ≠ v.sideB

/-- A definitely connected segment of a snapshot (R58). -/
def Snapshot.surely (s : Snapshot) (i : SegId) : Prop :=
  Fed (s.carries (fun p => p = .opened)) (fun f => (f, FeedState.accepted) ∈ s.feeds) i

/-- A possibly connected segment of a snapshot (R59). -/
def Snapshot.perhaps (s : Snapshot) (i : SegId) : Prop :=
  Fed (s.carries (fun p => p = .opened ∨ p = .moving ∨ p = .unknown))
    (fun f => (f, FeedState.accepted) ∈ s.feeds ∨ (f, FeedState.doubtful) ∈ s.feeds) i

/-- No plan is RESTORING, so the end of an event passes no claim on. -/
abbrev State.noRestoring (s : State) : Prop := ∀ q ∈ s.planner.plans, q.state ≠ .restoring

/-! ## Stations -/

/-- The pressure and clamp mark of a raw count (R25). -/
def expectedPressure (r : StationStatic) (raw : Nat) : Nat × Clamp :=
  if raw < r.zero then (0, .under)
  else if r.zero + r.span < raw then (r.fullScale, .over)
  else (((raw - r.zero) * r.fullScale + r.span / 2) / r.span, .none)

/-- The filtered pressure (R26): `p` itself on a restart and where the shift is 0; otherwise the old value moved toward `p`
by the distance divided by 2^k, halves away from zero. -/
def expectedFiltered (k old p : Nat) (restart : Bool) : Nat :=
  if restart || k == 0 then p
  else if old ≤ p then old + (p - old + 2 ^ (k - 1)) / 2 ^ k
  else old - (old - p + 2 ^ (k - 1)) / 2 ^ k

/-- The rate of change (R27). -/
def expectedRate (restart : Bool) (dt : Nat) (kept : Int) (f fOld : Nat) : Int :=
  if restart then 0
  else if 600000 < dt then 0
  else if dt < 500 then kept
  else max (-1000000) (min 1000000 (Int.tdiv (((f : Int) - fOld) * 60000) dt))

/-- The fall count (R27, R30). -/
def expectedFall (restart : Bool) (dt : Nat) (kept : Nat) (rate : Int) (limit : Nat) : Nat :=
  if restart then 0
  else if 600000 < dt then 0
  else if dt < 500 then kept
  else if rate ≤ -(limit : Int) then (if kept < 2 then kept + 1 else kept)
  else 0

/-- The band state where the limits are in order (R28): the band is left only past its limit by more than the deadband, and
a worse band is entered at its limit. -/
def expectedBand (current : Band) (l : Limits) (f : Nat) : Band :=
  let forced : Band :=
    if f ≤ l.ll then .lolo else if f ≤ l.l then .lo else if f < l.h then .normal else if f < l.hh then .hi else .hihi
  match current with
  | .lolo => if f ≤ l.ll + l.deadband then .lolo else if f ≤ l.l + l.deadband then .lo else forced
  | .lo => if f ≤ l.ll then .lolo else if f ≤ l.l + l.deadband then .lo else forced
  | .normal => forced
  | .hi => if l.hh ≤ f then .hihi else if l.h ≤ f + l.deadband then .hi else forced
  | .hihi => if l.hh ≤ f + l.deadband then .hihi else if l.h ≤ f + l.deadband then .hi else forced

/-- A station has lost its data (R33, R34, R42, R43): its quality is `q` and its staleness deadline is gone; its feed is
DOUBTFUL, with the revision and a pass where that is a change; STATION_NO_DATA stands where the alarm list had room. No other
station or feed, no valve, no call and no outage record has changed. -/
def dataLost (s t : State) (i : StationId) (q : Quality) : Prop :=
  t.stationLive = upd s.stationLive i (fun l => { l with quality := q, staleness := none }) ∧
    (∀ f : FeedId, t.feedState[f] =
      if s.table.stations[i].location = .feed f then .doubtful else s.feedState[f]) ∧
    (t.feedState ≠ s.feedState → t.revision = s.revision + 1 ∧ passFollows s t) ∧
    (t.feedState = s.feedState → s.noRestoring → t.revision = s.revision) ∧
    (s.alarms.general.length < 127 → ∃ x ∈ t.alarms.general, x.kind = .stationNoData ∧ x.object = i.val ∧
      x.state = .unackActive ∧ x.priority = 3 ∧ x.place = stationPlace s.table i ∧ x.raiseStamp = s.now) ∧
    Untouched s t ∧ valvesKept s t ∧ t.calls.calls = s.calls.calls ∧ t.outages = s.outages

/-! ## Parameters (R19) -/

/-- A parameter by its number. -/
def Params.get (ps : Params) (k : Nat) : Nat :=
  match k with
  | 0 => ps.silence
  | 1 => ps.framePeriod
  | 2 => ps.pollBudget
  | 3 => ps.escalationCount
  | 4 => ps.escalationWindow
  | 5 => ps.largeOutage
  | 6 => ps.authWindow
  | 7 => ps.remoteLimit
  | 8 => ps.crewLimit
  | 9 => ps.acceptDeadline
  | 10 => ps.provingWindow
  | _ => ps.provingLevel

/-- The lowest and highest value of each parameter (R19). -/
def paramRanges : List (Nat × Nat) :=
  [(2, 60), (1000, 10000), (1, 64), (2, 16), (60, 3600), (0, 65535), (30, 600), (1, 8), (1, 16), (2, 30), (60, 3600),
    (0, 100000)]

/-! ## Plans -/

/-- The held plan of a number. -/
def State.plan? (s : State) (n : Nat) : Option Plan := s.planner.plans.find? (fun p => p.number == n)

/-- The held incident of a number. -/
def State.incident? (s : State) (n : Nat) : Option Incident := s.calls.incidents.find? (fun i => i.number == n)

/-- The grade of a held incident, 3 where none is held. -/
def State.gradeOf (s : State) (incident : Nat) : Nat := ((s.incident? incident).map (fun i => i.grade)).getD 3

/-- How many authorisations a plan needs (R101). -/
def State.needs (s : State) (p : Plan) : Nat :=
  if s.table.params.largeOutage ≤ p.customers ∧ s.gradeOf p.incident ≠ 1 then 2 else 1

/-- The order records that hold an order of a plan which is not final. -/
def State.liveOrderOf (s : State) (n : Nat) (o : Order) : Prop :=
  o.plan = n ∧ o.state.nonFinal = true ∧ ∃ i : Fin 64, s.switching.records[i] = some o

/-- At most a number of values meet a test. -/
def atMost {α : Type} (n : Nat) (test : α → Prop) : Prop := ∃ l : List α, l.length ≤ n ∧ ∀ x, test x → x ∈ l

/-- A boundary valve of a set of segments, with its outer side: present, with exactly one side in the set (R94, R95). -/
def State.borders (s : State) (inside : SegId → Prop) (v : ValveId) (outer : Side) : Prop :=
  s.table.valves[v].present = true ∧
    (∃ g, inside g ∧ joins s.table.valves[v].sideA s.table.valves[v].sideB (.seg g) outer) ∧
    ∀ g, outer = .seg g → ¬inside g

/-- A boundary valve that plan `n`, with no widen set and no done list, cannot use (R94, lines 2, 4, 5 and 8). -/
def State.unusable (s : State) (n : Nat) (v : ValveId) (outer : Side) : Prop :=
  let r := s.table.valves[v]
  let l := s.valveLive[v]
  l.fault ≠ .noFault ∨
    (l.claim ≠ none ∧ l.claim ≠ some n ∧ (l.position ≠ .closed ∨ (7 ≤ l.holds.length ∧ n ∉ l.holds))) ∨
    ((l.claim = none ∨ l.claim = some n) ∧
      (l.position = .unknown ∨ l.position = .moving ∨
        (l.position = .opened ∧ (r.noClose = true ∨ outer.isFeed = true))))

/-- The segments of a region grown from a target by a number of rings (R95, steps 1 and 5). -/
def State.within (s : State) (n : Nat) (target : List SegId) : Nat → SegId → Prop
  | 0 => fun g => g ∈ target
  | k + 1 => fun g => s.within n target k g ∨
      ∃ v, s.borders (s.within n target k) v (.seg g) ∧ s.unusable n v (.seg g)

/-- A region has an unusable boundary valve with a feed point as outer side (R95, step 2). -/
def State.meetsFeed (s : State) (n : Nat) (inside : SegId → Prop) : Prop :=
  ∃ v f, s.borders inside v (.feed f) ∧ s.unusable n v (.feed f)

/-- No boundary valve of a region is unusable (R95, step 3). -/
def State.enclosed (s : State) (n : Nat) (inside : SegId → Prop) : Prop :=
  ∀ v outer, s.borders inside v outer → ¬s.unusable n v outer

/-- A valve's turn would wait: it has an order that is not final and that the entry of plan `n` to RESTORING does not withdraw
(R140, R141 line 1). -/
def State.waitsFor (s : State) (n : Nat) (v : ValveId) : Prop :=
  ∃ (k : Fin 64) (o : Order), s.switching.records[k] = some o ∧ o.valve = v ∧ o.state.nonFinal = true ∧
    ¬(o.plan = n ∧ o.state = .queued ∧ o.action = .closeValve)

/-- The plans that share a hold on a valve, plan `n` itself passed over where the list names it (notes/assumptions/64.md). -/
def State.otherHolds (s : State) (n : Nat) (v : ValveId) : List Nat :=
  s.valveLive[v].holds.filter (fun m => m != n)

/-- A valve's turn deals with it at once (R141, lines 2 to 4). Line 2 is for a valve that another plan holds: plan `n` itself is
passed over among the shared holds (notes/assumptions/64.md). -/
def State.dealsAtOnce (s : State) (n : Nat) (v : ValveId) : Prop :=
  ¬s.waitsFor n v ∧
    (s.otherHolds n v ≠ [] ∨ s.valveLive[v].fault ≠ .noFault ∨ s.valveLive[v].position = .opened)

/-- The reopening turn of a valve on the done list of plan `n`, which has just entered RESTORING, by the first line of the
table of R141 that applies; line 2 passes the claim to the first plan of its shared holds (R142). Plan `n` itself is passed
over among them, and a valve whose shared holds name no other plan is judged by lines 3 to 5
(notes/assumptions/64.md). -/
def State.turnTaken (s t : State) (n : Nat) (v : ValveId) : Prop :=
  let l := s.valveLive[v]
  let shows (pr : Progress) : Prop := ∀ x, t.plan? n = some x → (⟨v, pr⟩ : DoneEntry) ∈ x.done
  (s.waitsFor n v → (t.plan? n).isSome = true ∧ shows .notDealt) ∧
    (¬s.waitsFor n v → ∀ m rest, s.otherHolds n v = m :: rest →
      shows .passedOn ∧ t.valveLive[v].claim = some m ∧ m ∉ t.valveLive[v].holds ∧
        ∀ y, s.plan? m = some y → ∃ z, t.plan? m = some z ∧ v ∉ z.shared ∧
          ((∀ d ∈ y.done, d.valve ≠ v) → (⟨v, .notDealt⟩ : DoneEntry) ∈ z.done)) ∧
    (¬s.waitsFor n v → s.otherHolds n v = [] → l.fault ≠ .noFault →
      shows .incomplete ∧ ∀ x, t.plan? n = some x → v ∈ x.incomplete) ∧
    (¬s.waitsFor n v → s.otherHolds n v = [] → l.fault = .noFault → l.position = .opened → shows .reopened) ∧
    (¬s.waitsFor n v → s.otherHolds n v = [] → l.fault = .noFault → l.position ≠ .opened →
      (t.plan? n).isSome = true ∧ shows .notDealt ∧
        ((∃ k : Fin 64, ∀ o, s.switching.records[k] = some o → o.state.nonFinal = false) →
          (∀ y ∈ s.planner.plans, y.state = .executing → y.number = n) →
          ∃ o, t.liveOrderOf n o ∧ o.valve = v ∧ o.action = .openValve ∧ o.orderClass = .openClass ∧
            ∀ x, s.plan? n = some x →
              ((∀ c ∈ x.close, c.valve ≠ v) → o.rank = 255) ∧
              ((∃ c ∈ x.close, c.valve = v) → ∃ c ∈ x.close, c.valve = v ∧ c.rank = o.rank)))

/-- Some segment of a plan's region is published LIVE or UNCERTAIN. -/
abbrev State.gasIn (s : State) (p : Plan) : Prop :=
  ∃ g ∈ p.segs, s.segLive[g].supply = .live ∨ s.segLive[g].supply = .uncertain

/-- A station counts for the proof of a plan (R131): it is present, in the plan's region, and GOOD. -/
abbrev State.countsFor (s : State) (p : Plan) (i : StationId) : Prop :=
  s.table.stations[i].present = true ∧ (∃ g ∈ p.segs, s.table.stations[i].location = .seg g) ∧
    s.stationLive[i].quality = .good

/-- An order that the record holds still, or the record has been given to an order queued in the same event (R111). -/
def recordEnds (t : State) (i : Fin 64) (o : Order) : Prop :=
  t.switching.records[i] = some o ∨ ∃ o', t.switching.records[i] = some o' ∧ (o'.state = .queued ∨ o'.state = .sent)

/-- The plan of a number has failed an isolation and is to be computed again: it waits or is computed, or has been found
INFEASIBLE at once (R106, R109). -/
abbrev State.replans (t : State) (n : Nat) : Prop :=
  ∃ y, t.plan? n = some y ∧ (y.state = .replanning ∨ y.state = .infeasible)

/-- A state of a committed plan in which a failed valve makes it replan (R106). -/
def PlanState.mayReplan (st : PlanState) : Bool :=
  st == .executing || st == .proving || st == .proven || st == .letBy || st == .unproven || st == .proposed ||
    st == .authorising

/-- A valve that its plan failed to reopen: its done-list entry is incomplete, unless the plan has ended (R121, R141). -/
def State.notReopened (s t : State) (n : Nat) (v : ValveId) : Prop :=
  ∀ x, s.plan? n = some x → (∃ d ∈ x.done, d.valve = v) →
    t.plan? n = none ∨ ∃ y, t.plan? n = some y ∧ v ∈ y.incomplete ∧ ∀ d ∈ y.done, d.valve = v → d.progress = .incomplete

/-- The valve of an order has another position or fault (R8, R12, R62, R126): the revision moves, a pass follows a change of
position, and a fault raises VALVE_FAULT where the alarm list has room. No other valve has another position or fault. -/
def valveMoves (s t : State) (v : ValveId) (pos : Position) (f : ValveFault) : Prop :=
  t.valveLive[v].position = pos ∧ t.valveLive[v].fault = f ∧ otherValvesKept v s t ∧
    (pos ≠ s.valveLive[v].position ∨ f ≠ s.valveLive[v].fault →
      t.revision = s.revision + 1 ∧ t.valveLive[v].lastChange = s.now) ∧
    (pos ≠ s.valveLive[v].position → passFollows s t) ∧
    (f ≠ s.valveLive[v].fault → f ≠ .noFault → s.alarms.general.length < 127 →
      ∃ x ∈ t.alarms.general, x.kind = .valveFault ∧ x.object = v.val ∧ x.state = .unackActive ∧ x.priority = 2 ∧
        x.place = valvePlace s.table v ∧ x.raiseStamp = s.now)

/-- An order has failed (R118, R119, R121): its record is final in a state, its valve has a fault and may have another
position; a failed CLOSE makes its plan replan, and a failed OPEN leaves its entry incomplete. -/
def orderFails (s t : State) (i : Fin 64) (o : Order) (st : OrderState) (pos : Position) (f : ValveFault) : Prop :=
  recordEnds t i { o with state := st, deadline := none, endStamp := some s.now } ∧ valveMoves s t o.valve pos f ∧
    (o.action = .closeValve → s.noRestoring → s.plansOk = true → ∀ x, s.plan? o.plan = some x → x.committed = true →
      x.state.mayReplan = true → t.replans o.plan) ∧
    (o.action = .openValve → s.plansOk = true → s.notReopened t o.plan o.valve) ∧
    Untouched s t ∧ fieldKept s t ∧ t.calls.calls = s.calls.calls

/-- An order a reply names: its path, tag and valve, in flight (R118, R123). -/
abbrev Order.answers (o : Order) (path : OrderPath) (tag : Byte) (v : ValveId) : Prop :=
  o.path = path ∧ o.tag = tag.toNat ∧ o.valve = v ∧ o.state.inFlight = true

/-! ## Polls -/

/-- A station overdue as a frame starts: marked so, or in a waiting list that the frame start withdraws (R50, R54). -/
abbrev State.owing (s : State) (i : StationId) : Prop :=
  s.poll.overdue[i] = true ∨ ∃ w, s.poll.waiting = some w ∧ i ∈ w.2

/-- A candidate of a frame: present, and due in it or overdue (R46, R50). -/
def State.asksFor (s : State) (frame : Half) (i : StationId) : Prop :=
  s.table.stations[i].present = true ∧
    (frame.toNat % 2 ^ s.poll.tiers[i] = i.val % 2 ^ s.poll.tiers[i] ∨ s.owing i)

/-- The order of R50: overdue first, then the smaller tier, then the smaller number. -/
def State.pollOrder (s : State) (a b : StationId) : Prop :=
  (s.owing a ∧ ¬s.owing b) ∨
    ((s.owing a ↔ s.owing b) ∧
      (s.poll.tiers[a] < s.poll.tiers[b] ∨ (s.poll.tiers[a] = s.poll.tiers[b] ∧ a.val < b.val)))

/-- The telemetry port (R52): the lowest-numbered port whose working role is TELEMETRY. -/
abbrev State.isTelemetry (s : State) (p : Port) : Prop :=
  s.ports[p].role = .telemetry ∧ ∀ k : Port, k < p → s.ports[k].role ≠ .telemetry

/-! ## Outages -/

/-- A present segment with customers, published ISOLATED or DEAD (R148). -/
abbrev State.lost (s : State) (g : SegId) : Prop :=
  s.table.segs[g].present = true ∧ 0 < s.table.segs[g].customers ∧
    (s.segLive[g].supply = .isolated ∨ s.segLive[g].supply = .dead)

end Sys2Proof.Machine
end

