-- ==== Sys2Proof/Certificates/Slice0/Obligations.lean ====
section
/-! DEFINITION. The statements for the provers. Each says which rules of spec/ it rests on in its docstring; OBLIGATIONS.json
lists them. A request's statement begins from a port that is ready for it (`State.ready`): UP, of a role that permits the
request, with a free queue entry. `State.answered` is the whole effect of a request that only replies. A frame written
`t = { s with … , field := t.field }` says that every field not named is as it was. Where a statement says where the reply
stands among the frames of its event (`repliedNext`, `State.tell`), that place is the model's choice (notes/assumptions/13.md:
the reply first, and a notice where its effect happens). -/

open Sys2Proof Sys2Proof.Machine

/-! ## Steps -/

/-- A step takes the command at the front of the queue and runs it on the state with the queue's rest. -/
def Obligations.StepTakesTheFrontCommand : Prop :=
  ∀ (c : Instr) (rest : List Instr) (s : State),
    step { s with pending := c :: rest } = exec c { s with pending := rest }

/-- With no command waiting a step is one millisecond (R20; the model's choice, notes/assumptions/3.md): station time
advances by one, and exactly the expiries of the deadlines that fall on the new time join the commands that wait. -/
def Obligations.AnEmptyQueueIsOneMillisecond : Prop :=
  ∀ s : State, s.pending = [] →
    ∃ t, step s = .next t ∧ t = { s with now := s.now + 1, pending := t.pending } ∧
      ∀ c : Instr, c ∈ t.pending ↔ s.fallsDue (s.now + 1) c

/-! ## Device reset and the invariants at reset -/

/-- DEVICE RESET (R13): the mode, the table and the marks by the store, the lock mark, the unlock line and the four checks;
every block at its device reset values over the table chosen; and a published pass where the part has entered OPERATING. -/
def Obligations.DeviceResetChoosesModeAndTable : Prop :=
  ∀ (s : State) (unlock : Bool),
    let ok := s.store.valid && s.store.lock && !unlock && s.store.copy.firstFailure.isNone
    let tab := if s.store.valid then s.store.copy else Table.empty
    ∃ t, exec (.deviceReset unlock) s = .next t ∧
      t.mode = (if ok then .operating else .commissioning) ∧ t.table = tab ∧
      t.store = { s.store with lock := ok, state := .idle } ∧
      t.revision = 0 ∧ t.now = 0 ∧ t.frameNumber = 0 ∧ t.nextFrame = BitVec.ofNat 32 tab.params.framePeriod ∧
      (∀ g : SegId, t.segLive[g] = ⟨.uncertain, 0⟩) ∧
      (∀ v : ValveId, t.valveLive[v] =
        ⟨if tab.valves[v].kind = .remote then .unknown else tab.valves[v].normal, .noFault, none, [], false, 0⟩) ∧
      (∀ f : FeedId, t.feedState[f] = .doubtful) ∧
      (∀ i : StationId, t.stationLive[i] = { StationLive.reset tab.stations[i].limits with
        staleness := if tab.stations[i].present then
            some (BitVec.ofNat 32 ((3 * 2 ^ tab.stations[i].tier + 2) * tab.params.framePeriod)) else none }) ∧
      (∀ i : StationId, t.poll.tiers[i] = tab.stations[i].tier ∧ t.poll.overdue[i] = false) ∧
      t.poll.waiting = none ∧ t.poll.listCount = 0 ∧ t.poll.withheldCount = 0 ∧
      t.tracer = (if ok then
        { Tracer.reset with engine := .publishing { t.begin.snapshot with order := t.events } } else Tracer.reset) ∧
      t.calls = CallRegister.reset ∧ t.planner = Planner.reset ∧ t.switching = Switching.reset ∧
      t.outages = OutageRegister.reset ∧ t.alarms = AlarmList.reset ∧
      (∀ p : Port, t.ports[p] = LinkPort.reset tab.ports[p])

/-- The state after reset holds every invariant stated below, those of calls and plans (callsOk, plansOk) among them, and the
values the manual gives a part fresh from manufacture: COMMISSIONING, revision 0 (R11), station time and frame number 0
(R20, R21), every record ABSENT, every valve REMOTE and UNKNOWN, every feed DOUBTFUL, every port CONSOLE at 19,200 bit/s
and DOWN (R7, R13). -/
def Obligations.ResetMeetsTheInvariants : Prop :=
  State.reset.spansOk = true ∧ State.reset.subscriptionsOk = true ∧ State.reset.alarmsOk = true ∧ State.reset.queuesOk ∧
    State.reset.tagsOk ∧ State.reset.commissioningQuiet ∧ State.reset.callsOk = true ∧ State.reset.plansOk = true ∧
    State.reset.mode = .commissioning ∧ State.reset.revision = 0 ∧ State.reset.now = 0 ∧ State.reset.frameNumber = 0 ∧
    State.reset.store.valid = false ∧ State.reset.store.lock = false ∧
    (∀ g : SegId, State.reset.table.segs[g].present = false ∧ State.reset.segLive[g].supply = .uncertain) ∧
    (∀ v : ValveId, State.reset.table.valves[v].present = false ∧ State.reset.table.valves[v].kind = .remote ∧
      State.reset.valveLive[v].position = .unknown ∧ State.reset.valveLive[v].fault = .noFault) ∧
    (∀ f : FeedId, State.reset.table.feeds[f].present = false ∧ State.reset.feedState[f] = .doubtful) ∧
    (∀ i : StationId, State.reset.table.stations[i].present = false ∧ State.reset.stationLive[i].quality = .noData) ∧
    (∀ p : Port, State.reset.ports[p].role = .console ∧ State.reset.ports[p].rate = 19200 ∧
      State.reset.ports[p].state = .down ∧ State.reset.ports[p].queue = [])

/-! ## Requests turned away -/

/-- The tests a request meets before its block (R171, R175, section 11.4): on an UNUSED port nothing happens; on a full
queue the frame is heard and counted as discarded; from a role that does not permit it the reply is ROLE_REFUSED. -/
def Obligations.RequestsAreTestedBeforeTheirBlocks : Prop :=
  ∀ (i : Instr) (s : State) (kind seq : Byte) (fields : List Byte),
    i.wf = true → i.body = some (kind :: seq :: fields) →
      (s.ports[i.port].role = .unused → exec i s = .next s) ∧
      (s.ports[i.port].role ≠ .unused → s.ports[i.port].state = .up → s.ports[i.port].hasRoom = false →
        exec i s = .next { s.heard i.port with
          events := s.events + 2
          ports := upd (s.heard i.port).ports i.port (fun l => { l with discardCount := satInc 65535 l.discardCount }) }) ∧
      (s.ports[i.port].state = .up → s.ports[i.port].hasRoom = true → s.ports[i.port].role ≠ .unused →
        s.ports[i.port].role.permits kind = false →
        exec i s = .next (s.answered ⟨i.port, seq, kind⟩ .roleRefused []))

/-- In COMMISSIONING every request that acts on calls, incidents, plans and outages, and LOCK, is refused with MODE_REFUSED
and without change (R14). -/
def Obligations.CommissioningRefusesWhatActs : Prop :=
  ∀ (i : Instr) (s : State) (kind seq : Byte) (fields : List Byte),
    i.operatingOnly = true → i.body = some (kind :: seq :: fields) → s.ready i.port kind = true →
      s.mode = .commissioning → exec i s = .next (s.answered ⟨i.port, seq, kind⟩ .modeRefused [])

/-- A table write, a START or a STORE that cannot be taken (R15 checks 2 and 3, R16, R17): MODE_REFUSED in OPERATING, BUSY
while a STORE runs, and for a table write under the lock LOCKED with the TABLE_WRITE_REFUSED alarm, raised and cleared at
once. That the reply stands ahead of the alarm's notice is the model's choice (notes/assumptions/13.md). -/
def Obligations.TableRequestsThatCannotBeTaken : Prop :=
  ∀ (i : Instr) (s : State) (kind seq : Byte) (fields : List Byte),
    i.writesTable = true ∨ i.startsOrStores = true → i.body = some (kind :: seq :: fields) → s.ready i.port kind = true →
      (s.mode = .operating → (s.store.lock = false ∨ i.startsOrStores = true) →
        exec i s = .next (s.answered ⟨i.port, seq, kind⟩ .modeRefused [])) ∧
      (s.mode = .commissioning → s.store.state ≠ .idle → exec i s = .next (s.answered ⟨i.port, seq, kind⟩ .busy [])) ∧
      (s.mode = .operating → s.store.lock = true → i.writesTable = true →
        ∃ t, exec i s = .next t ∧
          t = { s with events := s.events + 2, alarms := t.alarms, ports := t.ports } ∧
          repliedNext s t ⟨i.port, seq, kind⟩ .locked [] ∧ portsGrow (s.heard i.port) t ∧
          t.alarms.subscriptions = s.alarms.subscriptions ∧
          (s.alarms.general.length < 127 → ∃ r ∈ t.alarms.general, r.kind = .tableWriteRefused ∧
            r.object = i.port.val ∧ r.priority = 2 ∧ r.place = noPlace ∧ r.state = .unackCleared ∧ r.raiseStamp = s.now))

/-! ## Table writes (R1 to R7, R15, R19) -/

/-- WRITE SEGMENT and WRITE FEED (R2, R5, R12, R15, R43, R62, R182): a present segment takes its zone and its clamped
customers, and one made present its live reset values; district 15 is refused. A feed takes its clamped record and becomes
DOUBTFUL, with the revision where that is a change, and FEED_FAILED is cleared. A published pass follows. The model's
reading of the manual: an absent record keeps its other fields (notes/assumptions/5.md), a WRITE of a present segment over
a present one leaves its live values (notes/assumptions/47.md), FEED_FAILED is cleared (notes/assumptions/19.md), the
result bytes of the OK replies are laid out as the request is (notes/assumptions/17.md), and the reply stands ahead of the
notices (notes/assumptions/13.md). -/
def Obligations.WriteSegmentAndFeedStoreTheirRecords : Prop :=
  (∀ (s : State) (p : Port) (seq segment presence zone : Byte) (customers : Half),
    s.ready p 0x10 = true → s.mode = .commissioning → s.store.state = .idle →
      let i : SegId := segment.toFin
      let old := s.table.segs[i]
      (presence = 0 → district zone ≠ 15 →
        ∃ t, exec (.writeSegment p seq segment presence zone customers) s = .next t ∧
          t = { s.answered ⟨p, seq, 0x10⟩ .ok ([segment, 0, zone] ++ u16 (min customers.toNat 60000)) with
            table := { s.table with segs := upd s.table.segs i (fun _ => ⟨true, zone, min customers.toNat 60000⟩) }
            segLive := if old.present then s.segLive else upd s.segLive i (fun _ => ⟨.uncertain, 0⟩)
            tracer := t.tracer } ∧
          passFollows s t ∧ t.tracer.waiting = s.tracer.waiting) ∧
      (presence = 1 →
        ∃ t, exec (.writeSegment p seq segment presence zone customers) s = .next t ∧
          t = { s.answered ⟨p, seq, 0x10⟩ .ok ([segment, 1, old.zone] ++ u16 old.customers) with
            table := { s.table with segs := upd s.table.segs i (fun r => { r with present := false }) }
            tracer := t.tracer } ∧
          passFollows s t ∧ t.tracer.waiting = s.tracer.waiting) ∧
      (presence = 0 → district zone = 15 →
        exec (.writeSegment p seq segment presence zone customers) s =
          .next (s.answered ⟨p, seq, 0x10⟩ .noSuchObject []))) ∧
  (∀ (s : State) (p : Port) (seq feed presence : Byte) (minimum deadband : Word) (f : FeedId),
    s.ready p 0x12 = true → s.mode = .commissioning → s.store.state = .idle → f.val = feed.toNat →
      presence = 0 ∨ presence = 1 →
      let r : FeedStatic := if presence = 1 then { s.table.feeds[f] with present := false } else
        ⟨true, min minimum.toNat 1000000, min deadband.toNat 50000⟩
      ∃ t, exec (.writeFeed p seq feed presence minimum deadband) s = .next t ∧
        t = { s with
          events := s.events + 2
          table := { s.table with feeds := upd s.table.feeds f (fun _ => r) }
          feedState := upd s.feedState f (fun _ => .doubtful)
          revision := if s.feedState[f] = .doubtful then s.revision else s.revision + 1
          alarms := t.alarms, tracer := t.tracer, ports := t.ports } ∧
        repliedNext s t ⟨p, seq, 0x12⟩ .ok ([feed, presence] ++ u32 r.minimum ++ u32 r.deadband) ∧
        portsGrow (s.heard p) t ∧
        (s.alarmsOk = true → ∀ x ∈ t.alarms.general, x.kind = .feedFailed → x.object = f.val → x.state = .unackCleared) ∧
        passFollows s t ∧ t.tracer.waiting = s.tracer.waiting)

/-- WRITE VALVE (R4, R8, R12, R15, R62, R182): the record as given, its travel limit clamped to the range of its kind; with
the flag ABSENT the other fields of the request, whatever they hold, are ignored; the live state back at its reset values,
with the revision where position, fault, claim or shared holds differ and the valve's alarms cleared. Stated where
COMMISSIONING holds no plan, incident or order, which is an invariant stated below. The model's reading of the manual: an
absent record keeps its fields and its live state resets by the kind it held (notes/assumptions/5.md), the last change
stamp is 0 and a pass always follows (notes/assumptions/19.md), the result bytes are laid out as the request is
(notes/assumptions/17.md), and the reply stands ahead of the notices (notes/assumptions/13.md). -/
def Obligations.WriteValveResetsTheLiveState : Prop :=
  ∀ (s : State) (p : Port) (seq : Byte) (valve : Half) (presence : Byte) (sideA sideB : Half) (kind normal noClose : Byte)
      (travel : Half) (v : ValveId) (a b : Side) (f : ValveFields),
    s.ready p 0x11 = true → s.mode = .commissioning → s.store.state = .idle → s.commissioningQuiet → s.alarmsOk = true →
      v.val = valve.toNat →
      presence = 1 ∨ (presence = 0 ∧ sideOf sideA = some a ∧ sideOf sideB = some b ∧
        valveFieldsOf kind normal noClose = some f) →
      let r : ValveStatic := if presence = 1 then { s.table.valves[v] with present := false } else
        ⟨true, a, b, f.kind, f.normal, f.noClose,
          if f.kind = .remote then max 5 (min travel.toNat 900) else max 60 (min travel.toNat 7200)⟩
      let new : ValveLive := ⟨if r.kind = .remote then .unknown else r.normal, .noFault, none, [], false, 0⟩
      let old := s.valveLive[v]
      ∃ t, exec (.writeValve p seq valve presence sideA sideB kind normal noClose travel) s = .next t ∧
        t = { s with
          events := s.events + 2
          table := { s.table with valves := upd s.table.valves v (fun _ => r) }
          valveLive := upd s.valveLive v (fun _ => new)
          revision := if old.position = new.position ∧ old.fault = .noFault ∧ old.claim = none ∧ old.holds = [] then
            s.revision else s.revision + 1
          alarms := t.alarms, tracer := t.tracer, poll := t.poll, ports := t.ports
          switching := { s.switching with surveyPending := t.switching.surveyPending } } ∧
        repliedNext s t ⟨p, seq, 0x11⟩ .ok (valveResult v r) ∧ portsGrow (s.heard p) t ∧
        (∀ i : StationId, s.table.stations[i].present = true → t.poll.tiers[i] = s.table.stations[i].tier) ∧
        (old.fault ≠ .noFault →
          ∀ x ∈ t.alarms.general, x.kind = .valveFault → x.object = v.val → x.state = .unackCleared) ∧
        passFollows s t ∧ t.tracer.waiting = s.tracer.waiting

/-- WRITE STATION (R3, R6, R15, R22, R34, R42, R182): the clamped record, the span last; with the flag ABSENT the other fields
of the request, whatever they hold, are ignored; the live state back at its reset values with its staleness deadline
armed; the three alarms of the station cleared; its overdue mark cleared; the feeds it stood at and stands at DOUBTFUL. A
place that is full is refused with TABLE_FULL. Stated where COMMISSIONING holds no plan, incident or order. The model's
reading of the manual: an absent record keeps its fields (notes/assumptions/5.md), the feed of the old and that of the new
location become DOUBTFUL (notes/assumptions/18.md), a PRESSURE_BAND record is cleared and not withdrawn
(notes/assumptions/49.md), the result bytes are laid out as the request is (notes/assumptions/17.md), and the reply stands
ahead of the notices (notes/assumptions/13.md). -/
def Obligations.WriteStationResetsTheStation : Prop :=
  ∀ (s : State) (p : Port) (seq station presence : Byte) (location zero span : Half) (fullScale : Word)
      (shift tier : Byte) (ll l h hh deadband fall : Word) (i : StationId) (loc : Side),
    s.ready p 0x13 = true → s.mode = .commissioning → s.store.state = .idle → s.commissioningQuiet → s.alarmsOk = true →
      i.val = station.toNat → presence = 1 ∨ (presence = 0 ∧ sideOf location = some loc) →
      let cmd : Instr := .writeStation p seq station presence location zero span fullScale shift tier ll l h hh deadband fall
      let old := s.table.stations[i]
      let z := min zero.toNat 4094
      let r : StationStatic := if presence = 1 then { old with present := false } else
        ⟨true, loc, z, max 1 (min span.toNat (4095 - z)), max 1000 (min fullScale.toNat 1000000), min shift.toNat 4,
          min tier.toNat 5, ⟨min ll.toNat 1000000, min l.toNat 1000000, min h.toNat 1000000, min hh.toNat 1000000,
            min deadband.toNat 1000000, max 1 (min fall.toNat 100000)⟩⟩
      let others := ((stationsAt s.table loc).filter (fun k => k != i)).length
      let full := match loc with
        | .seg _ => 4 ≤ others
        | .feed _ => 1 ≤ others
      (presence = 0 → full → exec cmd s = .next (s.answered ⟨p, seq, 0x13⟩ .tableFull [])) ∧
      (presence = 1 ∨ ¬full →
        ∃ t, exec cmd s = .next t ∧
          t = { s with
            events := s.events + 2
            table := { s.table with stations := upd s.table.stations i (fun _ => r) }
            stationLive := upd s.stationLive i (fun _ => { StationLive.reset r.limits with
              suppressed := t.stationLive[i].suppressed
              staleness := if r.present then
                some (s.now + BitVec.ofNat 32 ((3 * 2 ^ r.tier + 2) * s.table.params.framePeriod)) else none })
            feedState := t.feedState, revision := t.revision, poll := t.poll, alarms := t.alarms, tracer := t.tracer
            ports := t.ports } ∧
          repliedNext s t ⟨p, seq, 0x13⟩ .ok (stationResult i r) ∧ portsGrow (s.heard p) t ∧
          (t.stationLive[i].suppressed = true ↔ r.present = true ∧ ∃ g : SegId, r.location = .seg g ∧
            s.table.segs[g].present = true ∧ (s.segLive[g].supply = .isolated ∨ s.segLive[g].supply = .dead)) ∧
          (∀ f : FeedId, t.feedState[f] = (if (old.present = true ∧ old.location = .feed f) ∨
            (r.present = true ∧ r.location = .feed f) then .doubtful else s.feedState[f])) ∧
          t.revision = (if t.feedState = s.feedState then s.revision else s.revision + 1) ∧
          t.poll.overdue = upd s.poll.overdue i (fun _ => false) ∧
          (r.present = true → t.poll.tiers[i] = r.tier) ∧
          (∀ x ∈ t.alarms.general, x.object = i.val →
            x.kind = .pressureBand ∨ x.kind = .pressureFall ∨ x.kind = .stationNoData → x.state = .unackCleared) ∧
          (if t.feedState = s.feedState then t.tracer = s.tracer else passFollows s t ∧ t.tracer.waiting = s.tracer.waiting))

/-- WRITE PORT (R7, R15, R182): the table value alone, the rate clamped and rounded down to a listed rate; and WRITE PARAMETER
(R15, R19): the value clamped to its range, the scan frame period then rounded down to 250 ms, every other parameter as it
was. The result bytes, the stored record or value laid out as in the request, are the model's reading
(notes/assumptions/17.md). -/
def Obligations.WritePortAndParameterStoreTheirValues : Prop :=
  (∀ (s : State) (p : Port) (seq port role : Byte) (rate : Word) (k : Port) (r : Role),
    s.ready p 0x14 = true → s.mode = .commissioning → s.store.state = .idle → k.val = port.toNat → roleOf role = some r →
      ∃ n, exec (.writePort p seq port role rate) s = .next { s.answered ⟨p, seq, 0x14⟩ .ok ([port, role] ++ u32 n) with
          table := { s.table with ports := upd s.table.ports k (fun _ => ⟨r, n⟩) } } ∧
        n ∈ [19200, 38400, 57600, 115200, 230400, 460800, 921600] ∧ (n ≤ rate.toNat ∨ n = 19200) ∧
        ∀ m ∈ [19200, 38400, 57600, 115200, 230400, 460800, 921600], m ≤ rate.toNat → m ≤ n) ∧
  (∀ (s : State) (p : Port) (seq parameter : Byte) (value : Word),
    s.ready p 0x15 = true → s.mode = .commissioning → s.store.state = .idle →
      (12 ≤ parameter.toNat → exec (.writeParameter p seq parameter value) s =
        .next (s.answered ⟨p, seq, 0x15⟩ .noSuchObject [])) ∧
      (parameter.toNat < 12 →
        let range := paramRanges[parameter.toNat]!
        let c := max range.1 (min value.toNat range.2)
        let v := if parameter = 1 then c - c % 250 else c
        ∃ ps : Params, exec (.writeParameter p seq parameter value) s =
            .next { s.answered ⟨p, seq, 0x15⟩ .ok (u32 v) with table := { s.table with params := ps } } ∧
          ps.get parameter.toNat = v ∧ ∀ k, k < 12 → k ≠ parameter.toNat → ps.get k = s.table.params.get k))

/-- A table write that names a slot or a place beyond the last is refused with NO_SUCH_OBJECT and changes nothing (R1, R4, R6,
R15 check 4). That a side or location of an unknown first byte is refused so is the model's choice
(notes/assumptions/16.md). -/
def Obligations.TableWritesRefuseWhatDoesNotExist : Prop :=
  ∀ (s : State) (p : Port) (seq : Byte), s.mode = .commissioning → s.store.state = .idle →
    (∀ (valve : Half) (presence : Byte) (sideA sideB : Half) (kind normal noClose : Byte) (travel : Half),
      s.ready p 0x11 = true →
      512 ≤ valve.toNat ∨ (presence = 0 ∧ (sideOf sideA = none ∨ sideOf sideB = none)) →
      exec (.writeValve p seq valve presence sideA sideB kind normal noClose travel) s =
        .next (s.answered ⟨p, seq, 0x11⟩ .noSuchObject [])) ∧
    (∀ (feed presence : Byte) (minimum deadband : Word), s.ready p 0x12 = true → 64 ≤ feed.toNat →
      exec (.writeFeed p seq feed presence minimum deadband) s = .next (s.answered ⟨p, seq, 0x12⟩ .noSuchObject [])) ∧
    (∀ (station presence : Byte) (location zero span : Half) (fullScale : Word) (shift tier : Byte)
      (ll l h hh deadband fall : Word), s.ready p 0x13 = true →
      128 ≤ station.toNat ∨ (presence = 0 ∧ sideOf location = none) →
      exec (.writeStation p seq station presence location zero span fullScale shift tier ll l h hh deadband fall) s =
        .next (s.answered ⟨p, seq, 0x13⟩ .noSuchObject [])) ∧
    (∀ (port role : Byte) (rate : Word), s.ready p 0x14 = true → 4 ≤ port.toNat →
      exec (.writePort p seq port role rate) s = .next (s.answered ⟨p, seq, 0x14⟩ .noSuchObject []))

/-! ## START, STORE and LOCK -/

/-- START (R16, R182): where a check fails the reply names it and its object and nothing changes; where all pass, the part
enters OPERATING, each port takes its table role with a port reset where that is a change (R177: nothing of what its queue
held is left, and its resync mark is clear), the reply is queued and a published pass follows. Stated where COMMISSIONING holds no plan, incident or order. That a port which becomes UNUSED goes
DOWN is the model's reading (notes/assumptions/27.md). -/
def Obligations.StartEntersOperating : Prop :=
  ∀ (s : State) (p : Port) (seq : Byte),
    s.ready p 0x17 = true → s.mode = .commissioning → s.store.state = .idle → s.commissioningQuiet →
      (∀ f, s.table.firstFailure = some f →
        exec (.start p seq) s = .next (s.answered ⟨p, seq, 0x17⟩ .stateRefused (startFailureBytes f))) ∧
      (s.table.firstFailure = none →
        ∃ t, exec (.start p seq) s = .next t ∧
          t = { s with
            events := s.events + 2, mode := .operating
            switching := { s.switching with surveyPending := t.switching.surveyPending }
            poll := { s.poll with
              waiting := t.poll.waiting, overdue := t.poll.overdue, listCount := t.poll.listCount
              withheldCount := t.poll.withheldCount }
            alarms := t.alarms, tracer := t.tracer, ports := t.ports } ∧
          replyBody seq 0x17 .ok [] ∈ t.ports[p].queue ∧
          (∀ k : Port, t.ports[k].role = s.table.ports[k].role ∧ t.ports[k].rate = s.ports[k].rate ∧
            (s.ports[k].role = s.table.ports[k].role → ∃ more drops mark, t.ports[k] = { (s.heard p).ports[k] with
              queue := s.ports[k].queue ++ more, dropCount := drops, resyncMark := mark }) ∧
            (s.ports[k].role ≠ s.table.ports[k].role →
              t.ports[k].receiver = .hunting ∧ t.ports[k].held = 0 ∧ t.ports[k].gap = none ∧ t.ports[k].resyncMark = false ∧
                (∀ frames, frames.length + s.ports[k].held < 32 →
                  exec (.start p seq) { s with ports := upd s.ports k (fun l => { l with queue := frames }) } = .next t) ∧
                (s.table.ports[k].role = .unused → t.ports[k].state = .down ∧ t.ports[k].liveness = none) ∧
                (s.table.ports[k].role ≠ .unused → t.ports[k].state = s.ports[k].state))) ∧
          passFollows s t ∧ t.tracer.waiting = s.tracer.waiting)

/-- The four checks of START (R16): they all pass exactly where the table roles name one TELEMETRY port, one to three CONSOLE
ports and at most two DISPATCH ports; every present valve has two different present sides, at most one of them a feed; every
present segment is fed by some present feed along present valves; and every present station has a present location and
limits in order with a deadband smaller than each gap. -/
def Obligations.StartChecksTheTable : Prop :=
  ∀ t : Table, t.firstFailure = none ↔
    ((portsInOrder.filter (fun p => t.ports[p].role == .telemetry)).length = 1 ∧
      1 ≤ (portsInOrder.filter (fun p => t.ports[p].role == .console)).length ∧
      (portsInOrder.filter (fun p => t.ports[p].role == .console)).length ≤ 3 ∧
      (portsInOrder.filter (fun p => t.ports[p].role == .dispatch)).length ≤ 2) ∧
    (∀ v : ValveId, t.valves[v].present = true →
      t.sidePresent t.valves[v].sideA = true ∧ t.sidePresent t.valves[v].sideB = true ∧
        ¬(t.valves[v].sideA.isFeed = true ∧ t.valves[v].sideB.isFeed = true) ∧ t.valves[v].sideA ≠ t.valves[v].sideB) ∧
    (∀ g : SegId, t.segs[g].present = true →
      Fed (fun a b => ∃ v : ValveId, t.valves[v].present = true ∧ joins t.valves[v].sideA t.valves[v].sideB a b)
        (fun f => t.feeds[f].present = true) g) ∧
    (∀ i : StationId, t.stations[i].present = true →
      t.sidePresent t.stations[i].location = true ∧
        t.stations[i].limits.ll < t.stations[i].limits.l ∧ t.stations[i].limits.l < t.stations[i].limits.h ∧
        t.stations[i].limits.h < t.stations[i].limits.hh ∧
        t.stations[i].limits.ll + t.stations[i].limits.deadband < t.stations[i].limits.l ∧
        t.stations[i].limits.l + t.stations[i].limits.deadband < t.stations[i].limits.h ∧
        t.stations[i].limits.h + t.stations[i].limits.deadband < t.stations[i].limits.hh)

/-- STORE, its end, and LOCK (R17, R18): acceptance of a STORE clears the validity mark and holds one entry for the reply; the
end copies the table, sets the mark, sends the reply that is still owed and triggers a pass. LOCK is refused in
COMMISSIONING and with the validity mark clear, otherwise the lock mark is set and nothing else changes. The model's
choices: an end with no STORE running does nothing (notes/assumptions/4.md), and the reply's frame joins the queue at its
end (notes/assumptions/14.md). -/
def Obligations.StoreCopiesTheTableAndLockMarksIt : Prop :=
  (∀ (s : State) (p : Port) (seq : Byte), s.ready p 0x16 = true → s.mode = .commissioning → s.store.state = .idle →
    exec (.store p seq) s = .next { s.heard p with
      events := s.events + 2
      store := { s.store with valid := false, state := .writing (some (p, seq)) }
      ports := upd (s.heard p).ports p (fun l => { l with held := l.held + 1 }) }) ∧
  (∀ s : State, s.store.state = .idle → exec .storeEnd s = .next { s with events := s.events + 1 }) ∧
  (∀ (s : State) (r : Option (Port × Byte)), s.store.state = .writing r →
    ∃ t, exec .storeEnd s = .next t ∧
      t = { s with
        events := s.events + 1
        store := { s.store with copy := s.table, valid := true, state := .idle }
        ports := match r with
          | none => s.ports
          | some (p, seq) => upd s.ports p (fun l => { l with
              queue := l.queue ++ [replyBody seq 0x16 .ok []], held := l.held - 1 })
        tracer := t.tracer } ∧
      passFollows s t ∧ t.tracer.waiting = s.tracer.waiting) ∧
  (∀ (s : State) (p : Port) (seq : Byte), s.ready p 0x18 = true →
    (s.mode = .commissioning → exec (.lock p seq) s = .next (s.answered ⟨p, seq, 0x18⟩ .modeRefused [])) ∧
    (s.mode = .operating → s.store.valid = false →
      exec (.lock p seq) s = .next (s.answered ⟨p, seq, 0x18⟩ .stateRefused [])) ∧
    (s.mode = .operating → s.store.valid = true →
      exec (.lock p seq) s = .next { s.answered ⟨p, seq, 0x18⟩ .ok [] with store := { s.store with lock := true } }))

/-! ## Pressure surveillance -/

/-- A GOOD reading (R24 to R28, R30, R34, R36, R37, R40): conversion, filter, rate, fall count, limits, band, excursion
capture, staleness deadline and suppressed mark of its station; the first one after lost data clears STATION_NO_DATA; no
other station, no valve, no call and no outage record changes. The band is stated for limits in order, which START checks. The model's choices: the filtered pressure follows
the formula of R26 and not its sentence that a step has a size of at least 1 (notes/assumptions/36.md), a station of an
absent segment is judged by the state that segment still holds (notes/assumptions/48.md), and the reply stands ahead of
the notices (notes/assumptions/13.md). -/
def Obligations.GoodReadingRunsTheChain : Prop :=
  ∀ (s : State) (p : Port) (seq station : Byte) (raw : Half) (i : StationId),
    s.ready p 0x01 = true → s.table.presentStation station = some i →
      let r := s.table.stations[i]
      let old := s.stationLive[i]
      let restart : Bool := old.quality != .good
      let c := expectedPressure r raw.toNat
      let f := expectedFiltered r.shift old.pressure c.1 restart
      let dt := (s.now - old.tPrev).toNat
      let rate := expectedRate restart dt old.rate f old.pressure
      let limits := old.waiting.getD old.active
      ∃ t, exec (.reading p seq station raw 0) s = .next t ∧
        let new := t.stationLive[i]
        new = { old with
          quality := .good, converted := some ⟨c.1, c.2, .good⟩, pressure := f, tPrev := s.now, rate := rate
          fallCount := expectedFall restart dt old.fallCount rate limits.fall
          active := limits, waiting := none
          staleness := some (s.now + BitVec.ofNat 32 ((3 * 2 ^ s.poll.tiers[i] + 2) * s.table.params.framePeriod))
          band := new.band, capture := new.capture, suppressed := new.suppressed } ∧
        (limitsOrdered limits = true → new.band = expectedBand old.band limits f) ∧
        (new.band ≠ old.band → new.band = .lolo ∨ new.band = .hihi →
          new.capture = some (match old.capture with
            | none => ⟨new.band, f, rate, s.now, 0⟩
            | some x => { x with further := satInc 255 x.further })) ∧
        (new.band = old.band ∨ (new.band ≠ .lolo ∧ new.band ≠ .hihi) → new.capture = old.capture) ∧
        (new.suppressed = true ↔ old.suppressed = true ∧ ∃ g : SegId, r.location = .seg g ∧
          (s.segLive[g].supply = .isolated ∨ s.segLive[g].supply = .dead)) ∧
        (old.quality = .stale ∨ old.quality = .failed → s.alarmsOk = true →
          ∀ x ∈ t.alarms.general, x.kind = .stationNoData → x.object = i.val → x.state = .unackCleared) ∧
        (∀ j : StationId, j ≠ i → t.stationLive[j] = s.stationLive[j]) ∧
        Untouched s t ∧ valvesKept s t ∧ t.calls.calls = s.calls.calls ∧ t.outages.records = s.outages.records ∧
        repliedNext s t ⟨p, seq, 0x01⟩ .ok [] ∧ portsGrow (s.heard p) t

/-- PRESSURE_BAND and PRESSURE_FALL at a GOOD reading (R29, R30, R40), where the alarm list has room and the limits are in
order. At a station that is not suppressed a worse band or the other side raises, NORMAL clears, anything else brings no
record. The first GOOD reading of a suppressed station whose segment has gas again ends the mark and raises PRESSURE_BAND
afresh for a band other than NORMAL; while the segment has no gas the mark stays and no record is added. A fall count that
reaches 2 raises for a feed station or a segment with gas, and one that returns to 0 clears. A station of an absent
segment is judged by the state that segment still holds, the model's choice (notes/assumptions/48.md). -/
def Obligations.BandAndFallAlarmsFollowTheReading : Prop :=
  ∀ (s : State) (p : Port) (seq station : Byte) (raw : Half) (i : StationId),
    s.ready p 0x01 = true → s.table.presentStation station = some i → s.alarmsOk = true →
      s.alarms.general.length < 126 →
      limitsOrdered (s.stationLive[i].waiting.getD s.stationLive[i].active) = true →
      ∃ t, exec (.reading p seq station raw 0) s = .next t ∧
        let b := s.stationLive[i].band
        let b' := t.stationLive[i].band
        let mine (k : AlarmKind) (x : AlarmRec) : Prop := x.kind = k ∧ x.object = i.val
        let gas := match s.table.stations[i].location with
          | .seg g => s.segLive[g].supply = .live ∨ s.segLive[g].supply = .uncertain
          | .feed _ => True
        let none' := ∀ x ∈ t.alarms.general, mine .pressureBand x → x ∈ s.alarms.general
        let raised := ∃ x ∈ t.alarms.general, mine .pressureBand x ∧ x.state = .unackActive ∧ x.raiseStamp = s.now ∧
          x.place = stationPlace s.table i ∧ x.priority = if b' = .lolo ∨ b' = .hihi then 1 else 2
        (s.stationLive[i].suppressed = false →
          t.stationLive[i].suppressed = false ∧
          (b' = b ∨ (b = .lolo ∧ b' = .lo) ∨ (b = .hihi ∧ b' = .hi) → none') ∧
          (b' ≠ b → b' = .normal → ∀ x ∈ t.alarms.general, mine .pressureBand x → x.state = .unackCleared) ∧
          (b' ≠ b → b' ≠ .normal → ¬(b = .lolo ∧ b' = .lo) → ¬(b = .hihi ∧ b' = .hi) → raised)) ∧
        (s.stationLive[i].suppressed = true → gas →
          t.stationLive[i].suppressed = false ∧ (b' ≠ .normal → raised) ∧ (b' = .normal → none')) ∧
        (s.stationLive[i].suppressed = true → ¬gas → t.stationLive[i].suppressed = true ∧ none') ∧
        (s.stationLive[i].fallCount = 1 → t.stationLive[i].fallCount = 2 → gas →
          ∃ x ∈ t.alarms.general, mine .pressureFall x ∧ x.state = .unackActive ∧ x.raiseStamp = s.now ∧ x.priority = 2) ∧
        (s.stationLive[i].fallCount ≠ 0 → t.stationLive[i].fallCount = 0 →
          ∀ x ∈ t.alarms.general, mine .pressureFall x → x.state = .unackCleared)

/-- A fast fall opens an incident (R30, R31, R83): when the fall count of a segment station goes from 1 to 2 in OPERATING, its
segment has gas and lies in no incident, and a slot is free, an incident of origin PRESSURE and grade 2 is opened on the
segment; otherwise no incident is opened. -/
def Obligations.FastFallOpensAnIncident : Prop :=
  ∀ (s : State) (p : Port) (seq station : Byte) (raw : Half) (i : StationId) (g : SegId),
    s.ready p 0x01 = true → s.table.presentStation station = some i → s.table.stations[i].location = .seg g →
      ∃ t, exec (.reading p seq station raw 0) s = .next t ∧
        let falls := s.stationLive[i].fallCount = 1 ∧ t.stationLive[i].fallCount = 2 ∧ s.mode = .operating ∧
          (s.segLive[g].supply = .live ∨ s.segLive[g].supply = .uncertain) ∧
          (∀ x ∈ s.calls.incidents, g ∉ x.segments) ∧ s.calls.incidents.length < 16
        (falls → ∃ x, t.calls.incidents.getLast? = some x ∧ x.origin = .pressure ∧ x.segments = [g] ∧ x.grade = 2 ∧
          x.state = .opened ∧ (s.noRestoring → x.plan = none) ∧ x.openedAt = s.now ∧ x.zone = s.table.segs[g].zone ∧
          (∀ y ∈ s.calls.incidents, y.number ≠ x.number) ∧
          t.calls.incidents.length = s.calls.incidents.length + 1) ∧
        (¬falls → t.calls.incidents.length = s.calls.incidents.length)

/-- A SUSPECT reading moves the last converted value alone (R32); a reading of no present station is refused with
NO_SUCH_OBJECT (R23); a FAILED reading of a FAILED station changes nothing (R33). -/
def Obligations.SuspectReadingConvertsOnly : Prop :=
  ∀ (s : State) (p : Port) (seq station : Byte) (raw : Half) (quality : Byte), s.ready p 0x01 = true →
    (s.table.presentStation station = none →
      exec (.reading p seq station raw quality) s = .next (s.answered ⟨p, seq, 0x01⟩ .noSuchObject [])) ∧
    (∀ i : StationId, s.table.presentStation station = some i →
      let c := expectedPressure s.table.stations[i] raw.toNat
      (quality = 1 →
        exec (.reading p seq station raw quality) s = .next { s.answered ⟨p, seq, 0x01⟩ .ok [] with
          stationLive := upd s.stationLive i (fun l => { l with converted := some ⟨c.1, c.2, .suspect⟩ }) }) ∧
      (1 < quality.toNat → s.stationLive[i].quality = .failed →
        exec (.reading p seq station raw quality) s = .next (s.answered ⟨p, seq, 0x01⟩ .ok [])))

/-- A station loses its data (R33, R34, R42, R43): by a FAILED reading or at its staleness deadline its quality changes and
its deadline is gone, its feed becomes DOUBTFUL with the revision and a pass, and STATION_NO_DATA is raised where the
alarm list has room. The model's choices: a deadline that does not run or is not reached does nothing
(notes/assumptions/6.md), one that has run out reads as none (notes/assumptions/50.md), and the reply stands ahead of the
notices (notes/assumptions/13.md). -/
def Obligations.StationLosesItsData : Prop :=
  (∀ (s : State) (p : Port) (seq station : Byte) (raw : Half) (quality : Byte) (i : StationId),
    s.ready p 0x01 = true → s.table.presentStation station = some i → 1 < quality.toNat →
      s.stationLive[i].quality ≠ .failed →
      ∃ t, exec (.reading p seq station raw quality) s = .next t ∧ dataLost s t i .failed ∧
        repliedNext s t ⟨p, seq, 0x01⟩ .ok [] ∧ portsGrow (s.heard p) t) ∧
  (∀ (s : State) (i : StationId), expired s.now s.stationLive[i].staleness = true →
      (s.stationLive[i].quality = .noData ∨ s.stationLive[i].quality = .good →
        ∃ t, exec (.stalenessDeadlineExpiry i) s = .next t ∧ dataLost s t i .stale ∧ portsGrow s t) ∧
      (s.stationLive[i].quality = .stale ∨ s.stationLive[i].quality = .failed →
        exec (.stalenessDeadlineExpiry i) s = .next { s with
          events := s.events + 1
          stationLive := upd s.stationLive i (fun l => { l with staleness := none }) })) ∧
  (∀ (s : State) (i : StationId), expired s.now s.stationLive[i].staleness = false →
    exec (.stalenessDeadlineExpiry i) s = .next { s with events := s.events + 1 })

/-- The feed state follows its outlet station (R41, R43): at a GOOD reading of a station at a present feed. A change moves
the revision, triggers a pass, is noted for the Outage Register where it is to FAILED, and moves FEED_FAILED. -/
def Obligations.FeedStateFollowsItsOutlet : Prop :=
  ∀ (s : State) (p : Port) (seq station : Byte) (raw : Half) (i : StationId) (k : FeedId),
    s.ready p 0x01 = true → s.table.presentStation station = some i → s.table.stations[i].location = .feed k →
      s.table.feeds[k].present = true →
      ∃ t, exec (.reading p seq station raw 0) s = .next t ∧
        let f := t.stationLive[i].pressure
        let m := s.table.feeds[k].minimum
        let b := s.table.feeds[k].deadband
        t.feedState[k] = (if f < m then .failed else if m + b ≤ f then .accepted
          else if s.feedState[k] = .doubtful then .accepted else s.feedState[k]) ∧
        (∀ j : FeedId, j ≠ k → t.feedState[j] = s.feedState[j]) ∧
        (t.feedState[k] = s.feedState[k] → t.outages = s.outages ∧ (s.noRestoring → t.revision = s.revision)) ∧
        (t.feedState[k] ≠ s.feedState[k] → t.revision = s.revision + 1 ∧ passFollows s t ∧
          (t.feedState[k] = .failed →
            t.outages = { s.outages with feedNote := some (match s.outages.feedNote with
              | none => ⟨s.now, t.events, s.now, t.events⟩
              | some c => { c with lastStamp := s.now, lastOrder := t.events }) } ∧
            (s.alarms.general.length < 125 → ∃ x ∈ t.alarms.general, x.kind = .feedFailed ∧ x.object = k.val ∧
              x.priority = 1 ∧ x.place = noPlace ∧ x.state = .unackActive)) ∧
          (t.feedState[k] = .accepted → t.outages = s.outages ∧ (s.alarmsOk = true →
            ∀ x ∈ t.alarms.general, x.kind = .feedFailed → x.object = k.val → x.state = .unackCleared)))

/-- LIMITS WRITE and COLLECT (R35, R38): ROLE_REFUSED from a port that is no console, NO_SUCH_OBJECT for a station that is not
present. LIMITS WRITE answers LIMITS_INVALID where a value is out of its range or the limits are not in order; otherwise the
six values wait for the next GOOD reading. COLLECT's reply carries the capture, or says that there is none, and the capture
empties. Nothing else changes. -/
def Obligations.LimitsWaitAndCollectEmpties : Prop :=
  (∀ (s : State) (p : Port) (seq station : Byte) (ll l h hh d fall : Word),
    let cmd : Instr := .limitsWrite p seq station ll l h hh d fall
    let q : Sender := ⟨p, seq, 0x19⟩
    let ok := ll.toNat ≤ 1000000 ∧ l.toNat ≤ 1000000 ∧ h.toNat ≤ 1000000 ∧ hh.toNat ≤ 1000000 ∧
      ll.toNat < l.toNat ∧ l.toNat < h.toNat ∧ h.toNat < hh.toNat ∧ ll.toNat + d.toNat < l.toNat ∧
      l.toNat + d.toNat < h.toNat ∧ h.toNat + d.toNat < hh.toNat ∧ 1 ≤ fall.toNat ∧ fall.toNat ≤ 100000
    (s.ports[p].state = .up → s.ports[p].hasRoom = true → s.ports[p].role = .telemetry ∨ s.ports[p].role = .dispatch →
      exec cmd s = .next (s.answered q .roleRefused [])) ∧
    (s.ports[p].state = .up → s.ports[p].hasRoom = true → s.ports[p].role = .console →
      (s.table.presentStation station = none → exec cmd s = .next (s.answered q .noSuchObject [])) ∧
      (∀ i : StationId, s.table.presentStation station = some i →
        (¬ok → exec cmd s = .next (s.answered q .limitsInvalid [])) ∧
        (ok → exec cmd s = .next { s.answered q .ok [] with
          stationLive := upd s.stationLive i (fun x => { x with
            waiting := some ⟨ll.toNat, l.toNat, h.toNat, hh.toNat, d.toNat, fall.toNat⟩ }) })))) ∧
  (∀ (s : State) (p : Port) (seq station : Byte),
    let q : Sender := ⟨p, seq, 0x1A⟩
    (s.ports[p].state = .up → s.ports[p].hasRoom = true → s.ports[p].role = .telemetry ∨ s.ports[p].role = .dispatch →
      exec (.collect p seq station) s = .next (s.answered q .roleRefused [])) ∧
    (s.ports[p].state = .up → s.ports[p].hasRoom = true → s.ports[p].role = .console →
      (s.table.presentStation station = none →
        exec (.collect p seq station) s = .next (s.answered q .noSuchObject [])) ∧
      (∀ i : StationId, s.table.presentStation station = some i →
        exec (.collect p seq station) s = .next {
          s.answered q .ok (match s.stationLive[i].capture with
            | none => List.replicate 15 0
            | some x => [1] ++ u8 x.band.code ++ u32 x.pressure ++ i32 x.rate ++ w32 x.stamp ++ u8 x.further) with
          stationLive := upd s.stationLive i (fun l => { l with capture := none }) })))

/-- A publication at the Pressure Monitor (R39): every present segment station of a present segment published ISOLATED or DEAD
is suppressed, one newly suppressed loses its PRESSURE_BAND record, and no other mark or record changes. That a delivery
which is not the next for the Pressure Monitor does nothing is the model's choice (notes/assumptions/4.md). -/
def Obligations.SuppressionFollowsThePublication : Prop :=
  (∀ (s : State) (pub : Publication) (rest : List (Reactor × Publication)),
    s.tracer.deliveries = (.suppression, pub) :: rest →
      ∃ t, exec .publicationSuppression s = .next t ∧
        t = { s with
          events := s.events + 1, stationLive := t.stationLive, alarms := t.alarms, ports := t.ports
          tracer := { s.tracer with deliveries := rest } } ∧
        let cut (i : StationId) : Prop := s.table.stations[i].present = true ∧ ∃ g : SegId,
          s.table.stations[i].location = .seg g ∧ s.table.segs[g].present = true ∧
            (s.segLive[g].supply = .isolated ∨ s.segLive[g].supply = .dead)
        (∀ i : StationId, t.stationLive[i] = { s.stationLive[i] with suppressed := t.stationLive[i].suppressed } ∧
          (t.stationLive[i].suppressed = true ↔ s.stationLive[i].suppressed = true ∨ cut i)) ∧
        (∀ x : AlarmRec, x ∈ t.alarms.general ↔ x ∈ s.alarms.general ∧
          ¬(x.kind = .pressureBand ∧ ∃ i : StationId, x.object = i.val ∧ cut i ∧ s.stationLive[i].suppressed = false)) ∧
        t.alarms.subscriptions = s.alarms.subscriptions ∧ portsGrow s t) ∧
  (∀ s : State, (∀ pub rest, s.tracer.deliveries ≠ (.suppression, pub) :: rest) →
    exec .publicationSuppression s = .next { s with events := s.events + 1 })

/-! ## Polls and supply -/

/-- FRAME START (R21, R50 to R54): at its time the frame number and the next frame start move on, a waiting list is withdrawn,
and the candidates in the order of R50 are cut to the budget: listed on a telemetry port that is UP with an entry free (a
due SURVEY first), left waiting where no entry is free, and all overdue where the port is not UP. That nothing happens
before its time is the model's choice (notes/assumptions/6.md). -/
def Obligations.FrameStartDisposesOfItsList : Prop :=
  (∀ s : State, reached s.now s.nextFrame = false → exec .frameStart s = .next { s with events := s.events + 1 }) ∧
  (∀ s : State, reached s.now s.nextFrame = true →
    let frame := s.frameNumber + 1
    let b := s.table.params.pollBudget
    let gone := if s.poll.waiting.isSome then satInc 65535 s.poll.withheldCount else s.poll.withheldCount
    ∃ (t : State) (cs : List StationId), exec .frameStart s = .next t ∧
      t = { s with
        events := s.events + 1, frameNumber := frame
        nextFrame := s.now + BitVec.ofNat 32 s.table.params.framePeriod
        poll := { s.poll with
          overdue := t.poll.overdue, waiting := t.poll.waiting, listCount := t.poll.listCount
          withheldCount := t.poll.withheldCount }
        switching := { s.switching with surveyPending := t.switching.surveyPending }, ports := t.ports } ∧
      (∀ i : StationId, i ∈ cs ↔ s.asksFor frame i) ∧ cs.Pairwise s.pollOrder ∧
      (∀ p : Port, ¬s.isTelemetry p → t.ports[p] = s.ports[p]) ∧
      ((∀ p : Port, s.isTelemetry p → s.ports[p].state ≠ .up) →
        t.ports = s.ports ∧ t.switching = s.switching ∧ t.poll.waiting = none ∧ t.poll.listCount = s.poll.listCount ∧
          t.poll.withheldCount = satInc 65535 gone ∧
          ∀ i : StationId, t.poll.overdue[i] = true ↔ s.owing i ∨ i ∈ cs) ∧
      (∀ p : Port, s.isTelemetry p → s.ports[p].state = .up →
        let survey := decide (s.switching.surveyPending = true ∧ s.ports[p].entries < 32)
        let first := if survey then [surveyBody] else []
        t.switching.surveyPending = (s.switching.surveyPending && !survey) ∧ t.poll.withheldCount = gone ∧
          (s.ports[p].entries + first.length < 32 →
            t.ports[p] = { s.ports[p] with queue := s.ports[p].queue ++ first ++ [pollListBody frame (cs.take b)] } ∧
              t.poll.waiting = none ∧ t.poll.listCount = satInc 65535 s.poll.listCount ∧
              ∀ i : StationId, t.poll.overdue[i] = true ↔ (s.owing i ∧ i ∉ cs.take b) ∨ i ∈ cs.drop b) ∧
          (32 ≤ s.ports[p].entries + first.length →
            t.ports[p] = { s.ports[p] with queue := s.ports[p].queue ++ first } ∧
              t.poll.waiting = some (frame, cs.take b) ∧ t.poll.listCount = s.poll.listCount ∧
              ∀ i : StationId, t.poll.overdue[i] = true ↔ s.owing i ∨ i ∈ cs.drop b)))

/-- The supply state a pass finds (R58, R59, R60): LIVE exactly where a path of OPEN edges comes from an ACCEPTED feed;
UNCERTAIN where only a path of edges that are not CLOSED from a feed that is not FAILED does; otherwise ISOLATED in the
region of a committed plan, and DEAD elsewhere. -/
def Obligations.SupplyStatesFollowThePaths : Prop :=
  ∀ (s : Snapshot) (i : SegId),
    (s.supply i = .live ↔ s.surely i) ∧
    (s.supply i = .uncertain ↔ ¬s.surely i ∧ s.perhaps i) ∧
    (s.supply i = .isolated ↔ ¬s.surely i ∧ ¬s.perhaps i ∧ ∃ r ∈ s.regions, i ∈ r.2) ∧
    (s.supply i = .dead ↔ ¬s.surely i ∧ ¬s.perhaps i ∧ ∀ r ∈ s.regions, i ∉ r.2) ∧
    (s.surely i → s.perhaps i)

/-- PUBLICATION (R64, R65, R67): the generation moves past 0, every segment present in the snapshot and now takes the state
the pass found, with the generation where that differs, the three deliveries wait behind those not yet taken, and the
engine takes the work that waits. The model's choices: without a published pass nothing happens (notes/assumptions/4.md),
and the next pass takes its snapshot at the end of the event (notes/assumptions/11.md). -/
def Obligations.PublicationPublishesThePass : Prop :=
  (∀ (s : State) (snap : Snapshot), s.tracer.engine = .publishing snap →
    let g : Word := if s.tracer.generation = 4294967295#32 then 1 else s.tracer.generation + 1
    ∃ t pub, exec .publication s = .next t ∧
      t = { s with events := s.events + 1, segLive := t.segLive, tracer := t.tracer } ∧
      (∀ i : SegId, t.segLive[i] = if i ∈ snap.segs ∧ s.table.segs[i].present = true then
        ⟨snap.supply i, if s.segLive[i].supply = snap.supply i then s.segLive[i].changed else g⟩ else s.segLive[i]) ∧
      t.tracer.generation = g ∧
      t.tracer.deliveries = s.tracer.deliveries ++ [(.suppression, pub), (.outages, pub), (.proving, pub)] ∧
      pub.generation = g ∧ pub.stamp = snap.stamp ∧ pub.revision = snap.revision ∧ pub.order = snap.order ∧
      pub.segs = (snap.segs.filter (fun i => s.table.segs[i].present)).map
        (fun i => ⟨i, snap.supply i, s.segLive[i].supply⟩) ∧
      t.tracer.lastKind = .published ∧
      (match s.tracer.waiting, s.tracer.rerun with
        | some o, r => t.tracer.engine = .hypothetical { t.begin.snapshot with order := t.events } o ∧
          t.tracer.waiting = none ∧ t.tracer.rerun = r
        | none, true => t.tracer.engine = .publishing { t.begin.snapshot with order := t.events } ∧
          t.tracer.waiting = none ∧ t.tracer.rerun = false
        | none, false => t.tracer.engine = .idle ∧ t.tracer.waiting = none ∧ t.tracer.rerun = false)) ∧
  (∀ s : State, (∀ snap, s.tracer.engine ≠ .publishing snap) →
    exec .publication s = .next { s with events := s.events + 1 })

/-- What only certain commands move, whatever the state (R2, R12 to R18, R20, R21, R64, R66, R164): the published states, the
table, the mode, the lock mark, the store's copy, the subscriptions, station time and the frame number. A byte received may
complete a frame that carries any request, so it is left out. -/
def Obligations.OnlyTheirCommandsMoveTheseParts : Prop :=
  ∀ (c : Instr) (s t : State), exec c s = .next t → (∀ p b, c ≠ .receiveByte p b) → (∀ u, c ≠ .deviceReset u) →
    t.pending = s.pending ∧ t.now = s.now ∧
    (t.segLive ≠ s.segLive → c = .publication ∨ ∃ p seq g pr z n, c = .writeSegment p seq g pr z n) ∧
    (t.table ≠ s.table → c.writesTable = true) ∧
    (t.mode ≠ s.mode → ∃ p seq, c = .start p seq) ∧
    (t.store.lock ≠ s.store.lock → ∃ p seq, c = .lock p seq) ∧
    (t.store.copy ≠ s.store.copy → c = .storeEnd) ∧
    (t.frameNumber ≠ s.frameNumber ∨ t.nextFrame ≠ s.nextFrame → c = .frameStart) ∧
    (t.alarms.subscriptions ≠ s.alarms.subscriptions → ∃ p seq n ds, c = .subscribe p seq n ds) ∧
    (t.tracer.generation ≠ s.tracer.generation → c = .publication)

/-! ## Calls and incidents -/

/-- CALL (R72, R75 to R78, R81, R182): a call of a reference not held, with a free record, is recorded as it came; it joins
the incident that holds its segment, otherwise the oldest it may extend, otherwise one opened for it, otherwise none; and
the arrival list of its zone takes its stamp. The OK reply carries the result of R182 at offset 4, the incident number or 0
for none, and the call reference (R76, step 6), high byte first; that the reference stands after the number is the model's
reading (notes/assumptions/25.md). -/
def Obligations.CallIsRecordedAndGrouped : Prop :=
  ∀ (s : State) (p : Port) (seq : Byte) (ref : Word) (segment grade place : Byte) (g : SegId) (gr : Nat) (pl : CallPlace),
    s.ready p 0x08 = true → s.mode = .operating → s.callsOk = true →
      s.table.presentSeg segment = some g → gradeOf grade = some gr → callPlaceOf place = some pl →
      (∀ c ∈ s.calls.calls, c.ref ≠ ref) → s.calls.calls.length < 64 →
      let zone := s.table.segs[g].zone
      let held := s.calls.incidents.find? (fun i => i.segments.contains g)
      let near := s.calls.incidents.find? (fun i => (i.state == .opened || i.state == .isolating) && i.zone == zone &&
        decide (i.segments.length < 8) && s.table.adjoins g i.segments)
      let recent := s.calls.arrivals[zone.toFin].filter
        (fun a => decide ((s.now - a).toNat ≤ s.table.params.escalationWindow * 1000)) ++ [s.now]
      ∃ t joined, exec (.call p seq ref segment grade place) s = .next t ∧
        t.calls.calls = s.calls.calls ++
          [⟨ref, g, gr, pl, s.now, s.calls.arrivalSequence + 1, .opened, joined⟩] ∧
        t.calls.arrivals = upd s.calls.arrivals zone.toFin
          (fun _ => if 16 < recent.length then recent.drop 1 else recent) ∧
        t.calls.arrivalSequence = s.calls.arrivalSequence + 1 ∧
        (∀ i, held = some i → joined = some i.number ∧
          t.calls.incidents.map (fun x => x.segments) = s.calls.incidents.map (fun x => x.segments)) ∧
        (∀ i, held = none → near = some i → joined = some i.number ∧
          t.calls.incidents.map (fun x => x.segments) = s.calls.incidents.map
            (fun x => if x.number = i.number then x.segments ++ [g] else x.segments)) ∧
        (held = none → near = none → s.calls.incidents.length < 16 →
          ∃ i, t.calls.incidents.getLast? = some i ∧ joined = some i.number ∧
            t.calls.incidents.length = s.calls.incidents.length + 1 ∧ (∀ x ∈ s.calls.incidents, x.number ≠ i.number) ∧
            i.segments = [g] ∧ i.origin = .calls ∧ i.zone = zone ∧ i.state = .opened ∧ i.openedAt = s.now ∧
            i.sequence = s.calls.openingSequence + 1) ∧
        (held = none → near = none → s.calls.incidents.length = 16 → joined = none ∧
          t.calls.incidents.map (fun x => x.segments) = s.calls.incidents.map (fun x => x.segments)) ∧
        replyBody seq 0x08 .ok (u8 (joined.getD 0)) ++ w32 ref ∈ t.ports[p].queue ∧
        Untouched s t ∧ valvesKept s t ∧ fieldKept s t

/-- Grades and escalation at a CALL (R76 step 4, R80, R82): after it every incident, one opened by this CALL among them, has
the grade of R80: the smallest of the grades of its calls, 2 where its origin is PRESSURE and 1 where it is escalated.
Where the arrival list of the zone holds K stamps every incident of the zone is escalated, the one opened by this CALL
too, and no other mark moves. A call of a reference held is refused with DUPLICATE, and one that finds no free record with
TABLE_FULL and the CALL_TABLE_FULL alarm. That this reply stands ahead of the alarm's notice is the model's choice
(notes/assumptions/13.md). -/
def Obligations.CallGradesAndEscalates : Prop :=
  ∀ (s : State) (p : Port) (seq : Byte) (ref : Word) (segment grade place : Byte) (g : SegId),
    s.ready p 0x08 = true → s.mode = .operating → s.callsOk = true →
      s.table.presentSeg segment = some g → (gradeOf grade).isSome = true → (callPlaceOf place).isSome = true →
      (∀ c ∈ s.calls.calls, c.ref = ref →
        exec (.call p seq ref segment grade place) s = .next (s.answered ⟨p, seq, 0x08⟩ .duplicate [])) ∧
      ((∀ c ∈ s.calls.calls, c.ref ≠ ref) → s.calls.calls.length = 64 →
        ∃ t, exec (.call p seq ref segment grade place) s = .next t ∧
          t = { s with events := s.events + 2, alarms := t.alarms, ports := t.ports } ∧
          repliedNext s t ⟨p, seq, 0x08⟩ .tableFull [] ∧ portsGrow (s.heard p) t ∧
          (s.alarms.general.length < 127 → ∃ r ∈ t.alarms.general, r.kind = .callTableFull ∧ r.object = 0 ∧
            r.priority = 1 ∧ r.place = noPlace ∧ r.state = .unackCleared)) ∧
      ((∀ c ∈ s.calls.calls, c.ref ≠ ref) → s.calls.calls.length < 64 →
        ∃ t, exec (.call p seq ref segment grade place) s = .next t ∧
          let zone := s.table.segs[g].zone
          let many := s.table.params.escalationCount ≤ t.calls.arrivals[zone.toFin].length
          (∀ x ∈ t.calls.incidents,
            (∀ c ∈ t.calls.calls, c.incident = some x.number → x.grade ≤ c.grade) ∧
            (x.origin = .pressure → x.grade ≤ 2) ∧ (x.escalated = true → x.grade ≤ 1) ∧ x.grade ≤ 3 ∧
            ((∃ c ∈ t.calls.calls, c.incident = some x.number ∧ c.grade = x.grade) ∨
              (x.origin = .pressure ∧ x.grade = 2) ∨ (x.escalated = true ∧ x.grade = 1) ∨ x.grade = 3)) ∧
          (∀ x ∈ s.calls.incidents, ∃ y ∈ t.calls.incidents, y.number = x.number ∧ y.sequence = x.sequence ∧
            y.origin = x.origin ∧ y.zone = x.zone ∧ y.openedAt = x.openedAt) ∧
          (∀ y ∈ t.calls.incidents, y.escalated = true ↔ (many ∧ y.zone = zone) ∨
            ∃ x ∈ s.calls.incidents, x.number = y.number ∧ x.escalated = true) ∧
          (many → (∃ y ∈ t.calls.incidents, y.zone = zone) → s.alarms.general.length < 126 →
            ∃ r ∈ t.alarms.general, r.kind = .incidentEscalated ∧ r.object = zone.toNat ∧ r.place = zone ∧
              r.priority = 1 ∧ r.state = .unackActive))

/-- CALL UPDATE and MADE SAFE (R84 to R86): ROLE_REFUSED from a port that is no dispatch computer, MODE_REFUSED in
COMMISSIONING, NO_SUCH_OBJECT for what is not held, STATE_REFUSED for a state that does not allow it. Otherwise the call
of an incident takes its state, an UNGROUPED call takes ATTENDED or is freed, and the incident becomes MADE_SAFE, with an
INCIDENT NOTICE where that is a change of an incident, and nothing else changes. That the reply stands ahead of the notice
is the model's choice (notes/assumptions/13.md). -/
def Obligations.DispatchMovesCallsAndIncidents : Prop :=
  (∀ (s : State) (p : Port) (seq : Byte) (ref : Word) (state : Byte),
    s.ports[p].state = .up → s.ports[p].hasRoom = true →
      let cmd : Instr := .callUpdate p seq ref state
      let q : Sender := ⟨p, seq, 0x09⟩
      (s.ports[p].role = .telemetry ∨ s.ports[p].role = .console → exec cmd s = .next (s.answered q .roleRefused [])) ∧
      (s.ports[p].role = .dispatch → s.mode = .commissioning → exec cmd s = .next (s.answered q .modeRefused [])) ∧
      (s.ports[p].role = .dispatch → s.mode = .operating → s.callsOk = true →
        (updateStateOf state = none → exec cmd s = .next (s.answered q .stateRefused [])) ∧
        (∀ st, updateStateOf state = some st →
          ((∀ c ∈ s.calls.calls, c.ref ≠ ref) → exec cmd s = .next (s.answered q .noSuchObject [])) ∧
          (∀ c ∈ s.calls.calls, c.ref = ref →
            let calls' : CallRegister := { s.calls with
              calls := s.calls.calls.map (fun y => if y.ref == ref then { y with state := st } else y) }
            (c.state = .closed → exec cmd s = .next (s.answered q .stateRefused [])) ∧
            (c.state = st → c.state ≠ .closed → exec cmd s = .next (s.answered q .ok [])) ∧
            (∀ i ∈ s.calls.incidents, c.incident = some i.number → c.state ≠ .closed → c.state ≠ st →
              exec cmd s = .next (State.tell { s.answered q .ok [] with calls := calls' } LinkPort.deskUp
                (incidentNoticeBody (calls'.callsOf i.number) i .call))) ∧
            (c.incident = none → c.state = .opened → st = .attended →
              exec cmd s = .next { s.answered q .ok [] with calls := calls' }) ∧
            (c.incident = none → c.state ≠ .closed → st = .closed →
              ∃ t, exec cmd s = .next t ∧
                t = { s with
                  events := s.events + 2
                  calls := { s.calls with calls := s.calls.calls.filter (fun y => y.ref != ref) }
                  alarms := t.alarms, ports := t.ports } ∧
                repliedNext s t q .ok [] ∧ portsGrow (s.heard p) t ∧
                ((∀ y ∈ s.calls.calls, y.ref ≠ ref → y.incident ≠ none) → s.alarmsOk = true →
                  ∀ r ∈ t.alarms.general, r.kind = .incidentTableFull → r.object = 0 → r.state = .unackCleared)))))) ∧
  (∀ (s : State) (p : Port) (seq incident : Byte),
    s.ports[p].state = .up → s.ports[p].hasRoom = true →
      let cmd : Instr := .madeSafe p seq incident
      let q : Sender := ⟨p, seq, 0x0A⟩
      (s.ports[p].role = .telemetry ∨ s.ports[p].role = .console → exec cmd s = .next (s.answered q .roleRefused [])) ∧
      (s.ports[p].role = .dispatch → s.mode = .commissioning → exec cmd s = .next (s.answered q .modeRefused [])) ∧
      (s.ports[p].role = .dispatch → s.mode = .operating →
        ((∀ i ∈ s.calls.incidents, i.number ≠ incident.toNat) → exec cmd s = .next (s.answered q .noSuchObject [])) ∧
        (∀ i ∈ s.calls.incidents, i.number = incident.toNat → s.callsOk = true →
          (i.state ≠ .opened → i.state ≠ .isolating → exec cmd s = .next (s.answered q .stateRefused [])) ∧
          (i.state = .opened ∨ i.state = .isolating →
            let calls' : CallRegister := { s.calls with
              incidents := s.calls.incidents.map (fun x => if x.number == i.number then { x with state := .madeSafe } else x) }
            exec cmd s = .next (State.tell { s.answered q .ok [] with calls := calls' } LinkPort.deskUp
              (incidentNoticeBody (calls'.callsOf i.number) { i with state := .madeSafe } .state))))))

/-- CLOSE INCIDENT (R79, R87): refused unless the incident is held and its plan is none or has ended. Otherwise its call
records and its slot are freed, INCIDENT_ESCALATED of its zone is cleared where no incident left is escalated, and the
UNGROUPED calls are grouped again, the oldest of them at once, since a slot is free. -/
def Obligations.CloseIncidentFreesItsRecords : Prop :=
  ∀ (s : State) (p : Port) (seq incident : Byte),
    s.ready p 0x26 = true → s.mode = .operating → s.callsOk = true → s.alarmsOk = true →
      let cmd : Instr := .closeIncident p seq incident
      let q : Sender := ⟨p, seq, 0x26⟩
      ((∀ i ∈ s.calls.incidents, i.number ≠ incident.toNat) → exec cmd s = .next (s.answered q .noSuchObject [])) ∧
      (∀ i ∈ s.calls.incidents, i.number = incident.toNat →
        ((∃ n, i.plan = some (n, .held)) → exec cmd s = .next (s.answered q .stateRefused [])) ∧
        ((∀ n, i.plan ≠ some (n, .held)) →
          ∃ t, exec cmd s = .next t ∧ Untouched s t ∧ valvesKept s t ∧ fieldKept s t ∧
            replyBody seq 0x26 .ok [] ∈ t.ports[p].queue ∧
            (∀ x ∈ t.calls.incidents, x.sequence ≠ i.sequence) ∧
            t.calls.calls.map (fun c => { c with incident := none }) =
              (s.calls.calls.filter (fun c => c.incident != some i.number)).map (fun c => { c with incident := none }) ∧
            (∀ c, (s.calls.calls.filter (fun c => c.incident.isNone)).head? = some c →
              ∃ c' ∈ t.calls.calls, c'.ref = c.ref ∧ c'.incident ≠ none) ∧
            ((∀ x ∈ s.calls.incidents, x.number ≠ i.number → x.zone = i.zone → x.escalated = false) →
              ∀ r ∈ t.alarms.general, r.kind = .incidentEscalated → r.object = i.zone.toNat → r.state = .unackCleared) ∧
            ((∀ c ∈ s.calls.calls, c.incident ≠ none) →
              t = { s with
                events := s.events + 2
                calls := { s.calls with
                  calls := s.calls.calls.filter (fun c => c.incident != some i.number)
                  incidents := s.calls.incidents.filter (fun x => x.number != i.number) }
                poll := { s.poll with tiers := t.poll.tiers }, alarms := t.alarms, ports := t.ports })))

/-! ## Plans -/

/-- PLAN (R89, R91, R92, R182): refused unless the incident is OPEN or MADE_SAFE and its plan is none or has ended, and with
TABLE_FULL where eight plans are held. Otherwise a plan of a number that no plan and no outage record holds is created for
the incident, and queued behind the plans that wait where the planning engine runs. The INCIDENT NOTICE of step 2, with
cause PLAN, goes to each console and dispatch port that is UP and has room, and on the requesting port it stands ahead of
the reply of step 4. The model's choices: a new plan's basis revision, rings and customers are 0
(notes/assumptions/52.md), and it stands last in the plan table (notes/assumptions/71.md). -/
def Obligations.PlanIsCreatedForItsIncident : Prop :=
  ∀ (s : State) (p : Port) (seq incident : Byte) (i : Incident),
    s.ready p 0x20 = true → s.mode = .operating → s.callsOk = true → s.plansOk = true →
      i ∈ s.calls.incidents → i.number = incident.toNat →
      let cmd : Instr := .plan p seq incident
      let q : Sender := ⟨p, seq, 0x20⟩
      let ok := (i.state = .opened ∨ i.state = .madeSafe) ∧ ∀ n, i.plan ≠ some (n, .held)
      (¬ok → exec cmd s = .next (s.answered q .stateRefused [])) ∧
      (ok → s.planner.plans.length = 8 → exec cmd s = .next (s.answered q .tableFull [])) ∧
      (ok → s.planner.plans.length < 8 →
        ∃ t n, exec cmd s = .next t ∧ 1 ≤ n ∧ n ≤ 65535 ∧ (∀ x ∈ s.planner.plans, x.number ≠ n) ∧
          (∀ (k : OutageId) (o : Outage), s.outages.records[k] = some o → o.cause ≠ .plan n) ∧
          t.planner.lastPlan = n ∧ t.planner.plans.map (fun x => x.number) = s.planner.plans.map (fun x => x.number) ++ [n] ∧
          (∃ x, t.plan? n = some x ∧ x.incident = i.number ∧ x.committed = false ∧
            (x.state = .computing ∨ x.state = .infeasible)) ∧
          t.calls = { s.calls with
            incidents := s.calls.incidents.map (fun x => if x.number == i.number then { x with plan := some (n, .held) } else x) } ∧
          (let notice := incidentNoticeBody (s.calls.callsOf i.number) { i with plan := some (n, .held) } .plan
            ∀ k : Port,
              (k = p → s.ports[p].queue ++ (if s.ports[p].entries + 1 < 32 then [notice] else []) ++
                [replyBody seq 0x20 .ok (u16 n)] <+: t.ports[p].queue) ∧
              (k ≠ p → s.ports[k].deskUp = true → s.ports[k].entries < 32 →
                s.ports[k].queue ++ [notice] <+: t.ports[k].queue)) ∧
          Untouched s t ∧ t.valveLive = s.valveLive ∧ fieldKept s t ∧
          (s.planner.engine ≠ .idle → n ∉ s.planner.queue →
            t = { s with
              events := s.events + 2
              planner := { s.planner with
                plans := s.planner.plans ++ [Plan.new n i.number], lastPlan := n, queue := s.planner.queue ++ [n] }
              calls := t.calls, tracer := t.tracer, ports := t.ports }))

/-- The run of a new plan (R93 to R95, R99): on an IDLE engine it starts at once from the incident's segments, at the revision
then, and its region grows by rings, at most 4, each of which takes in the outer segments of every unusable boundary
valve. Where a region is reached with no unusable boundary valve and at most 64 valves, the run asks for a hypothetical
pass with its close valves closed. In that run every boundary valve of the region stands on one list, without a fault: an
OPEN valve to be closed, which may be closed and leads to no feed; a CLOSED one to be held; or a CLOSED one that another
plan holds, with room for a hold. Otherwise the plan is INFEASIBLE, and only then: with FEED_BOUNDARY where an unusable
valve leads to a feed, RINGS after 4 rings, REGION where a ring would pass 32 segments, VALVES for more than 64; it keeps
the region, rings and lists reached, has no collateral and no customers. The region of REGION is the one before the ring
that failed, the model's reading (notes/assumptions/32.md). -/
def Obligations.PlanRunIsolatesItsRegion : Prop :=
  ∀ (s : State) (p : Port) (seq incident : Byte) (i : Incident),
    s.ready p 0x20 = true → s.mode = .operating → s.callsOk = true → s.plansOk = true →
      i ∈ s.calls.incidents → i.number = incident.toNat → (i.state = .opened ∨ i.state = .madeSafe) →
      (∀ n, i.plan ≠ some (n, .held)) → s.planner.plans.length < 8 → s.planner.engine = .idle → s.planner.queue = [] →
      ∃ t k, exec (.plan p seq incident) s = .next t ∧
        let n := t.planner.lastPlan
        let inside (j : Nat) : SegId → Prop := s.within n i.segments j
        let grown (rs : List RegionSeg) : Prop :=
          ∀ r : RegionSeg, r ∈ rs ↔ r.ring ≤ k ∧ inside r.ring r.seg ∧ ∀ j, j < r.ring → ¬inside j r.seg
        let few := atMost 64 (fun v => ∃ outer, s.borders (inside k) v outer)
        let found := s.enclosed n (inside k) ∧ few
        k ≤ 4 ∧ (∀ j, j < k → ¬s.enclosed n (inside j) ∧ ¬s.meetsFeed n (inside j) ∧ atMost 32 (inside (j + 1))) ∧
        (¬found → ∃ x, t.plan? n = some x ∧ x.state = .infeasible ∧ t.planner.engine = .idle ∧
          (s.meetsFeed n (inside k) → x.reason = .feedBoundary) ∧
          (s.enclosed n (inside k) → x.reason = .valves) ∧
          (¬s.meetsFeed n (inside k) → ¬s.enclosed n (inside k) →
            (k = 4 ∧ x.reason = .rings) ∨ (k < 4 ∧ ¬atMost 32 (inside (k + 1)) ∧ x.reason = .region)) ∧
          grown x.region ∧ x.ringsUsed = k ∧ x.basis = s.revision ∧ x.collateral = [] ∧ x.customers = 0 ∧
          ∀ v : ValveId, (v ∈ x.close.map (fun c => c.valve) ∨ v ∈ x.holding ∨ v ∈ x.shared) ↔
            ∃ outer, s.borders (inside k) v outer ∧ ¬s.unusable n v outer) ∧
        (found →
          ∃ run, t.planner.engine = .running run ∧ run.plan = n ∧ run.count = 1 ∧ run.basis = s.revision ∧
            (t.tracer.waiting = some run.close ∨ ∃ snap, t.tracer.engine = .hypothetical snap run.close) ∧
            run.ringsUsed = k ∧ grown run.region ∧
            let region := run.region.map (fun r => r.seg)
            ∀ v : ValveId,
              let r := s.table.valves[v]
              let l := s.valveLive[v]
              ((v ∈ run.close ∨ v ∈ run.holding ∨ v ∈ run.shared) ↔
                r.present = true ∧ sideIn region r.sideA ≠ sideIn region r.sideB) ∧
              (v ∈ run.close → l.fault = .noFault ∧ l.position = .opened ∧ r.noClose = false ∧ r.sideA.isFeed = false ∧
                r.sideB.isFeed = false ∧ (l.claim = none ∨ l.claim = some n)) ∧
              (v ∈ run.holding → l.fault = .noFault ∧ l.position = .closed ∧ (l.claim = none ∨ l.claim = some n)) ∧
              (v ∈ run.shared → l.fault = .noFault ∧ l.position = .closed ∧ (∃ m, m ≠ n ∧ l.claim = some m) ∧
                (l.holds.length < 7 ∨ n ∈ l.holds)))

/-- HYPOTHETICAL RESULT (R67, R96 to R99, R107, R109). It ends the hypothetical pass whatever the planner does: nothing is
published, and a published pass that waits starts. A run whose basis still stands, or which has been started three times,
gives its result: the lists of the run, the close list ranked by depth, and the collateral segments, those the pass leaves
with no possible path; a plan never committed is PROPOSED, a committed one goes on EXECUTING where it may and is otherwise
PROPOSED again, and a committed one that finds the shared holds of a valve full is INFEASIBLE with its lists kept. A run
overtaken starts afresh at the revision now, or ends INFEASIBLE at once; a run given up is dropped. Stated where no plan
is RESTORING and no other plan waits for the engine. The model's choices: with no hypothetical pass nothing happens
(notes/assumptions/4.md), a started pass takes its snapshot at the end of the event (notes/assumptions/11.md), of two
passes that wait the choice is that of notes/assumptions/12.md, and a committed plan that is INFEASIBLE keeps its basis
revision with its lists, which is the model's reading of R90 and R109 (notes/assumptions/58.md). -/
def Obligations.HypotheticalResultEndsTheRun : Prop :=
  (∀ s : State, (∀ snap ov, s.tracer.engine ≠ .hypothetical snap ov) →
    exec .hypotheticalResult s = .next { s with events := s.events + 1 }) ∧
  (∀ (s : State) (snap : Snapshot) (ov : List ValveId), s.tracer.engine = .hypothetical snap ov →
    ∃ t, exec .hypotheticalResult s = .next t ∧ Untouched s t ∧ t.tracer.lastKind = .hypothetical ∧
      t.tracer.generation = s.tracer.generation ∧ t.tracer.deliveries = s.tracer.deliveries ∧
      (s.tracer.rerun = true →
        t.tracer.engine = .publishing { t.begin.snapshot with order := t.events } ∧ t.tracer.rerun = false)) ∧
  (∀ (s : State) (snap : Snapshot) (ov : List ValveId), s.tracer.engine = .hypothetical snap ov →
    s.planner.engine = .draining → s.planner.queue = [] →
    ∃ t, exec .hypotheticalResult s = .next t ∧ t.planner = { s.planner with engine := .idle } ∧ Untouched s t ∧
      t.valveLive = s.valveLive ∧ t.tracer.lastKind = .hypothetical) ∧
  (∀ (s : State) (snap : Snapshot) (ov : List ValveId) (run : Run) (p : Plan),
    s.tracer.engine = .hypothetical snap ov → s.planner.engine = .running run → s.plan? run.plan = some p →
      s.planner.queue = [] → s.noRestoring → s.plansOk = true →
    ∃ t, exec .hypotheticalResult s = .next t ∧ Untouched s t ∧ valvesKept s t ∧ fieldKept s t ∧
      t.tracer.lastKind = .hypothetical ∧
      (p.rerun = true ∨ (s.revision ≠ run.basis ∧ run.count < 3) →
        (∃ r, t.planner.engine = .running r ∧ r.plan = run.plan ∧ r.basis = s.revision ∧
          (r.count = if p.rerun then 1 else run.count + 1) ∧
          (t.tracer.waiting = some r.close ∨ ∃ snap', t.tracer.engine = .hypothetical snap' r.close)) ∨
        (t.planner.engine = .idle ∧ ∃ x, t.plan? run.plan = some x ∧ x.state = .infeasible ∧ x.reason ≠ .none)) ∧
      (p.rerun = false → s.revision = run.basis ∨ 3 ≤ run.count →
        ∃ x, t.plan? run.plan = some x ∧ t.planner.engine = .idle ∧
          let after := snap.override ov
          let region := run.region.map (fun r => r.seg)
          (p.committed = true → (∃ v ∈ run.shared, run.plan ∉ s.valveLive[v].holds ∧ 7 ≤ s.valveLive[v].holds.length) →
            x = { p with state := .infeasible, reason := .valves, widen := none } ∧ t.valveLive = s.valveLive) ∧
          ((∀ v ∈ run.shared, run.plan ∈ s.valveLive[v].holds ∨ s.valveLive[v].holds.length < 7) ∨ p.committed = false →
            x.basis = (if p.committed = true ∧ s.revision = run.basis then t.revision else run.basis) ∧
            x.region = run.region ∧ x.ringsUsed = run.ringsUsed ∧ x.holding = run.holding ∧ x.shared = run.shared ∧
            x.widen = none ∧ x.reason = .none ∧
            (x.close.map (fun c => c.valve)).Perm run.close ∧
            (∀ c ∈ x.close, c.rank = rankOf s.table after.definite c.valve) ∧
            x.close.Pairwise (fun a b => a.rank < b.rank ∨ (a.rank = b.rank ∧ a.valve.val ≤ b.valve.val)) ∧
            (∀ g : SegId, g ∈ x.collateral ↔ s.table.segs[g].present = true ∧ g ∉ region ∧ ¬after.perhaps g ∧
              (s.segLive[g].supply = .live ∨ s.segLive[g].supply = .uncertain ∨ g ∈ p.collateral ∨ g ∈ p.segs)) ∧
            x.customers = ((region ++ x.collateral).map (fun g => s.table.segs[g].customers)).sum ∧
            let straight := s.revision = run.basis ∧
              (s.gradeOf p.incident = 1 ∨ x.customers ≤ p.authCustomers.getD 0)
            x.committed = p.committed ∧ x.authSequence = p.authSequence ∧
            (p.committed = false → x.state = .proposed ∧ t.valveLive = s.valveLive ∧ t.revision = s.revision) ∧
            (p.committed = true → straight → x.state = .executing ∧ x.authCustomers = some x.customers) ∧
            (p.committed = true → ¬straight → x.state = .proposed))))

/-- AUTHORISE (R91, R100, R101, R103): refused for a number not held, a stage that does not fit the plan's state, or a second
time from one console; a first of two is recorded with its window; a completing one commits the plan: claims, shared
holds, the next authorisation sequence, its holder, EXECUTING, and orders for the valves of its lowest rank; one that
finds the basis moved answers PLAN_STALE and the plan is computed again. Stated where no plan is RESTORING. That the reply
stands ahead of the notices is the model's choice (notes/assumptions/13.md). -/
def Obligations.AuthoriseCommitsThePlan : Prop :=
  ∀ (s : State) (p : Port) (seq : Byte) (plan : Half) (stage : Byte),
    s.ready p 0x21 = true → s.mode = .operating → s.plansOk = true →
    let cmd : Instr := .authorise p seq plan stage
    let q : Sender := ⟨p, seq, 0x21⟩
    let n := plan.toNat
    (s.plan? n = none → exec cmd s = .next (s.answered q .noSuchObject [])) ∧
    (∀ r, s.plan? n = some r →
      let fits := (stage = 0 ∧ r.state = .proposed) ∨ (stage = 1 ∧ r.state = .authorising)
      (¬fits → exec cmd s = .next (s.answered q .stateRefused [])) ∧
      (fits → p ∈ r.authorisations → exec cmd s = .next (s.answered q .duplicate [])) ∧
      (fits → p ∉ r.authorisations → s.noRestoring →
        ∃ t, exec cmd s = .next t ∧ Untouched s t ∧ valvesKept s t ∧ fieldKept s t ∧ t.calls.calls = s.calls.calls ∧
          (r.basis ≠ s.revision → repliedNext s t q .planStale [] ∧ t.valveLive = s.valveLive ∧
            ∃ x, t.plan? n = some x ∧ x.authorisations = [] ∧ x.window = none ∧
              (x.state = .infeasible ∨ x.state = if r.committed then .replanning else .computing)) ∧
          (r.basis = s.revision → repliedNext s t q .ok []) ∧
          (r.basis = s.revision → stage = 0 → s.needs r = 2 → t.valveLive = s.valveLive ∧
            t.plan? n = some { r with
              state := .authorising, authorisations := r.authorisations ++ [p]
              window := some (s.now + BitVec.ofNat 32 (s.table.params.authWindow * 1000)) }) ∧
          (r.basis = s.revision → stage = 1 ∨ s.needs r = 1 → r.committed = false →
            let turn : Word := if s.planner.authCount = 4294967295#32 then 1 else s.planner.authCount + 1
            t.planner.authCount = turn ∧ passFollows s t ∧
            (∃ x, t.plan? n = some x ∧ x = { r with
              state := .executing, committed := true, authSequence := turn, holder := some p, frozen := false
              authorisations := [], window := none, authCustomers := some r.customers, confirmedBy := none
              awaiting := x.awaiting, closureStamp := x.closureStamp, awaitedGeneration := x.awaitedGeneration
              recloseWaiting := x.recloseWaiting }) ∧
            (∀ v : ValveId, t.valveLive[v].claim =
              if v ∈ r.close.map (fun c => c.valve) ∨ v ∈ r.holding then some n else s.valveLive[v].claim) ∧
            (∀ v ∈ r.shared, n ∈ t.valveLive[v].holds) ∧
            ((∃ v, (v ∈ r.close.map (fun c => c.valve) ∨ v ∈ r.holding) ∧ s.valveLive[v].claim ≠ some n) →
              t.revision = s.revision + 1) ∧
            (∀ i, s.incident? r.incident = some i → i.state = .opened →
              ∃ j, t.incident? r.incident = some j ∧ j.state = .isolating) ∧
            ((∀ k : Fin 64, s.switching.records[k] = none) → (∀ x ∈ s.planner.plans, x.state ≠ .executing) →
              r.recloseWaiting = [] → r.close.length ≤ 64 →
              ∀ c ∈ r.close, (∀ d ∈ r.done, d.valve ≠ c.valve) →
                (∀ c' ∈ r.close, (∀ d ∈ r.done, d.valve ≠ c'.valve) → c.rank ≤ c'.rank) →
                ∃ o, t.liveOrderOf n o ∧ o.valve = c.valve ∧ o.action = .closeValve ∧
                  (o.state = .queued ∨ o.state = .sent)))))

/-- The deadlines of plans (R102, R136): a window that runs out returns an AUTHORISING plan to PROPOSED without its
authorisations; a proof deadline that runs out makes a PROVING plan LET_BY, with its alarm where the list has room. Stated
where no plan is RESTORING. That nothing happens for a deadline that does not run or is not reached is the model's choice
(notes/assumptions/6.md). -/
def Obligations.PlanDeadlinesRunOut : Prop :=
  ∀ (s : State) (plan : Half), s.plansOk = true →
    ((∀ r, s.plan? plan.toNat = some r → expired s.now r.window = false ∨ r.state ≠ .authorising) →
      exec (.windowDeadlineExpiry plan) s = .next { s with events := s.events + 1 }) ∧
    (∀ r, s.plan? plan.toNat = some r → expired s.now r.window = true → r.state = .authorising → s.noRestoring →
      ∃ t, exec (.windowDeadlineExpiry plan) s = .next t ∧ Untouched s t ∧ t.valveLive = s.valveLive ∧ fieldKept s t ∧
        t.calls = s.calls ∧ t.plan? plan.toNat = some { r with state := .proposed, authorisations := [], window := none }) ∧
    ((∀ r, s.plan? plan.toNat = some r → expired s.now r.proofDeadline = false ∨ r.state ≠ .proving) →
      exec (.proofDeadlineExpiry plan) s = .next { s with events := s.events + 1 }) ∧
    (∀ r, s.plan? plan.toNat = some r → expired s.now r.proofDeadline = true → r.state = .proving → s.noRestoring →
      ∃ t, exec (.proofDeadlineExpiry plan) s = .next t ∧ Untouched s t ∧ t.valveLive = s.valveLive ∧ fieldKept s t ∧
        t.calls = s.calls ∧ t.plan? plan.toNat = some { r with state := .letBy, proofDeadline := none } ∧
        (s.alarms.general.length < 127 → ∃ x ∈ t.alarms.general, x.kind = .isolationLetBy ∧ x.object = plan.toNat ∧
          x.priority = 1 ∧ x.state = .unackActive ∧ x.raiseStamp = s.now))

/-- CANCEL and RESTORE (R84, R104, R139 to R144): a plan never committed is freed and its incident marked CANCELLED; a
committed plan is restored instead, as RESTORE does where the isolation is judged and the incident MADE_SAFE. Restoring
leaves no QUEUED CLOSE order of the plan, and the reopening turns of its done list are taken from the end: a valve with a
live order waits, a valve that other plans hold has its claim passed on, a faulty one is incomplete, an OPEN one is
reopened, and for any other an OPEN order is queued; the entries before one that waits or has its order queued are left. A
plan whose turns deal with every entry at once and which has no order in flight ends, each of its claims passed to the
first plan that shares the hold, or released. Stated where no other plan is RESTORING. The model's choices: a plan's own
number among the shared holds of a valve is passed over, at the valve's turn and at the plan's end
(notes/assumptions/64.md); the claims are given up in valve-number order (notes/assumptions/55.md); and the reply stands
ahead of the notices (notes/assumptions/13.md). -/
def Obligations.CancelAndRestoreEndThePlan : Prop :=
  ∀ (s : State) (p : Port) (seq : Byte) (plan : Half) (r : Plan),
    s.mode = .operating → s.callsOk = true → s.plansOk = true → s.plan? plan.toNat = some r →
      let n := plan.toNat
      let restored (cmd : Instr) (q : Sender) : Prop := ∃ t, exec cmd s = .next t ∧ repliedNext s t q .ok [] ∧
        Untouched s t ∧ valvesKept s t ∧ fieldKept s t ∧ t.calls.calls = s.calls.calls ∧
        (t.plan? n = none ∨ ∃ x, t.plan? n = some x ∧ x.state = .restoring ∧ x.authorisations = [] ∧ x.window = none ∧
          x.proofDeadline = none) ∧
        (∀ o, t.liveOrderOf n o → o.state = .queued → o.action = .openValve) ∧
        (∀ i, s.incident? r.incident = some i → i.state = .isolating ∨ i.state = .madeSafe →
          ∃ j, t.incident? r.incident = some j ∧ j.state = .restoring) ∧
        ((r.done.map (fun d => d.valve)).Nodup → (∀ o, s.liveOrderOf n o → o.action = .closeValve) →
          ∀ before v after, r.done = before ++ [⟨v, .notDealt⟩] ++ after →
            (∀ d ∈ after, d.progress = .notDealt → s.dealsAtOnce n d.valve) →
            s.turnTaken t n v ∧ (¬s.dealsAtOnce n v → ∃ x, t.plan? n = some x ∧ ∀ d ∈ before, d ∈ x.done)) ∧
        ((r.done.map (fun d => d.valve)).Nodup → (∀ d ∈ r.done, d.progress = .notDealt → s.dealsAtOnce n d.valve) →
          (∀ o, s.liveOrderOf n o → o.state = .queued ∧ o.action = .closeValve) →
          t.plan? n = none ∧ (∀ v : ValveId, s.valveLive[v].claim = some n →
            t.valveLive[v].claim = (s.otherHolds n v).head?) ∧
          (∀ i, s.incident? r.incident = some i → ∃ j, t.incident? r.incident = some j ∧ j.plan = some (n, .restored)))
      (s.ready p 0x22 = true → r.state = .restoring →
        exec (.cancel p seq plan) s = .next (s.answered ⟨p, seq, 0x22⟩ .stateRefused [])) ∧
      (s.ready p 0x22 = true → s.noRestoring → r.committed = true → restored (.cancel p seq plan) ⟨p, seq, 0x22⟩) ∧
      (s.ready p 0x22 = true → s.noRestoring → r.committed = false →
        ∃ t, exec (.cancel p seq plan) s = .next t ∧ repliedNext s t ⟨p, seq, 0x22⟩ .ok [] ∧ Untouched s t ∧
          t.valveLive = s.valveLive ∧ fieldKept s t ∧ t.calls.calls = s.calls.calls ∧ t.plan? n = none ∧
          t.planner.queue = s.planner.queue.filter (fun k => k != n) ∧
          t.planner.engine = (if s.planner.engine.runsFor n then .draining else s.planner.engine) ∧
          (∀ i, s.incident? r.incident = some i → ∃ j, t.incident? r.incident = some j ∧ j.plan = some (n, .cancelled))) ∧
      (s.ready p 0x25 = true →
        let judged := (r.state = .proven ∨ r.state = .letBy ∨ r.state = .unproven) ∧
          ∃ i, s.incident? r.incident = some i ∧ i.state = .madeSafe
        (¬judged → exec (.restore p seq plan) s = .next (s.answered ⟨p, seq, 0x25⟩ .stateRefused [])) ∧
        (judged → s.noRestoring → restored (.restore p seq plan) ⟨p, seq, 0x25⟩))

/-- WIDEN and CONFIRM (R107, R138): WIDEN of a committed plan in LET_BY records the valves it must pass and has the plan
computed again; CONFIRM of a plan in LET_BY or UNPROVEN makes it PROVEN by the console's word and clears its alarm; in any
other state both are refused. Stated where no plan is RESTORING. That the reply stands ahead of the notices is the model's
choice (notes/assumptions/13.md). -/
def Obligations.WidenAndConfirmAnswerAJudgement : Prop :=
  ∀ (s : State) (p : Port) (seq : Byte) (plan : Half) (r : Plan),
    s.mode = .operating → s.plansOk = true → s.plan? plan.toNat = some r →
    let n := plan.toNat
    (s.ready p 0x23 = true → r.state ≠ .letBy →
      exec (.widen p seq plan) s = .next (s.answered ⟨p, seq, 0x23⟩ .stateRefused [])) ∧
    (s.ready p 0x23 = true → r.state = .letBy → r.committed = true → s.noRestoring →
      ∃ t x, exec (.widen p seq plan) s = .next t ∧ repliedNext s t ⟨p, seq, 0x23⟩ .ok [] ∧ Untouched s t ∧
        t.valveLive = s.valveLive ∧ fieldKept s t ∧ t.calls = s.calls ∧ t.plan? n = some x ∧
        (x.state = .replanning ∧ x.widen = some (r.close.map (fun c => c.valve) ++ r.holding) ∨ x.state = .infeasible)) ∧
    (s.ready p 0x24 = true → r.state ≠ .letBy → r.state ≠ .unproven →
      exec (.confirm p seq plan) s = .next (s.answered ⟨p, seq, 0x24⟩ .stateRefused [])) ∧
    (s.ready p 0x24 = true → r.state = .letBy ∨ r.state = .unproven → s.noRestoring → s.alarmsOk = true →
      ∃ t, exec (.confirm p seq plan) s = .next t ∧ repliedNext s t ⟨p, seq, 0x24⟩ .ok [] ∧ Untouched s t ∧
        t.valveLive = s.valveLive ∧ fieldKept s t ∧ t.calls = s.calls ∧
        t.plan? n = some { r with state := .proven, confirmedBy := some p } ∧
        ∀ x ∈ t.alarms.general, x.object = n →
          x.kind = (if r.state = .letBy then .isolationLetBy else .isolationUnproven) → x.state = .unackCleared)

/-! ## Orders and valves -/

/-- VALVE REPORT and CREW VALVE REPORT (R8, R12, R115, R124 to R126): refused for a valve that is not present, an undefined
position, or the other kind of valve. Otherwise the valve takes the position; under an order in flight that is all; with
the flag, or at a second movement of a held valve, it takes LOCAL_CONTROL; a known movement without a claim is
VALVE_UNPLANNED; a held valve moved raises VALVE_HELD_MOVED and is re-closed once; a close valve reported CLOSED enters
the done list, and no CLOSE order of it is left; a QUEUED order whose valve takes a new fault is FAILED, and a failed CLOSE
makes its plan replan. Stated where no plan is RESTORING. The model's choices: the last change stamp moves only where the
position or the fault takes another value, though R124 says it becomes now (notes/assumptions/30.md); the flag acts ahead
of a withdrawal and after the rest of the case (notes/assumptions/37.md); the other bits of the flags byte are
ignored (notes/assumptions/63.md); a re-close that waits for a record waits on (notes/assumptions/54.md); where the event
asks for a hypothetical pass too, the published one starts first (notes/assumptions/12.md); and the reply stands ahead of
the notices (notes/assumptions/13.md). -/
def Obligations.ValveReportsMoveTheValve : Prop :=
  ∀ (s : State) (p : Port) (seq : Byte) (valve : Half) (position flags : Byte) (crew : Bool),
    let cmd : Instr := if crew then .crewValveReport p seq valve position flags else .valveReport p seq valve position flags
    let q : Sender := ⟨p, seq, if crew then 0x0E else 0x02⟩
    let kind : ValveKind := if crew then .manual else .remote
    s.ready p q.kind = true →
    (s.table.presentValve valve = none → exec cmd s = .next (s.answered q .noSuchObject [])) ∧
    (∀ v, s.table.presentValve valve = some v → positionOf position = none ∨ s.table.valves[v].kind ≠ kind →
      exec cmd s = .next (s.answered q .stateRefused [])) ∧
    (∀ v pos, s.table.presentValve valve = some v → positionOf position = some pos → s.table.valves[v].kind = kind →
      s.noRestoring → s.plansOk = true →
      let old := s.valveLive[v]
      let flying := ∃ (k : Fin 64) (o : Order), s.switching.records[k] = some o ∧ o.valve = v ∧ o.state.inFlight = true
      let marked := flags.getLsbD 0 = true
      let held (n : Nat) (x : Plan) : Prop := ¬flying ∧ old.claim = some n ∧ s.plan? n = some x
      let unplanned := ¬flying ∧ old.claim = none ∧ old.position ≠ .unknown ∧ pos ≠ .unknown ∧ old.position ≠ pos
      let moved := (∃ n x, held n x) ∧ old.position = .closed ∧ pos ≠ .closed
      ∃ t, exec cmd s = .next t ∧ repliedNext s t q .ok [] ∧ portsGrow (s.heard p) t ∧ Untouched s t ∧ t.calls = s.calls ∧
        t.stationLive = s.stationLive ∧ t.feedState = s.feedState ∧
        (∀ w : ValveId, w ≠ v → t.valveLive[w] = s.valveLive[w]) ∧
        t.valveLive[v] = { old with
          position := pos, fault := t.valveLive[v].fault, recloseUsed := t.valveLive[v].recloseUsed
          lastChange := if pos = old.position ∧ t.valveLive[v].fault = old.fault then old.lastChange else s.now } ∧
        (pos ≠ old.position → passFollows s t) ∧
        t.revision = (if pos = old.position ∧ t.valveLive[v].fault = old.fault then s.revision else s.revision + 1) ∧
        (flying → t.valveLive[v].fault = old.fault ∧ t.outages = s.outages ∧ ∀ (k : Fin 64) (o : Order),
          s.switching.records[k] = some o → o.valve = v → o.state.inFlight = true → t.switching.records[k] = some o) ∧
        (¬flying → (t.valveLive[v].fault = .localControl ↔
          old.fault = .localControl ∨ marked ∨ (moved ∧ old.recloseUsed = true)) ∧
          (t.valveLive[v].fault ≠ .localControl → t.valveLive[v].fault = old.fault)) ∧
        (t.valveLive[v].fault ≠ old.fault → ∀ (k : Fin 64) (o : Order),
          s.switching.records[k] = some o → o.valve = v → o.state = .queued →
          (∀ (k' : Fin 64) (o' : Order), s.switching.records[k'] = some o' → o'.state.nonFinal = true →
            o'.valve = v ∨ o'.tag = o.tag → k' = k) →
          recordEnds t k { o with state := .failed, deadline := none, endStamp := some s.now } ∧
          (o.action = .closeValve → ∀ x, s.plan? o.plan = some x → x.committed = true → x.state.mayReplan = true →
            t.replans o.plan)) ∧
        (t.valveLive[v].fault ≠ old.fault → s.alarms.general.length < 125 → ∃ x ∈ t.alarms.general,
          x.kind = .valveFault ∧ x.object = v.val ∧ x.state = .unackActive ∧ x.priority = 2) ∧
        (¬moved → t.valveLive[v].recloseUsed = old.recloseUsed) ∧
        (unplanned → t.outages = { s.outages with movementNote := some (match s.outages.movementNote with
              | none => ⟨s.now, t.events, s.now, t.events⟩
              | some c => { c with lastStamp := s.now, lastOrder := t.events }) } ∧
            (s.alarms.general.length < 115 → ∃ x ∈ t.alarms.general, x.kind = .valveUnplanned ∧ x.object = v.val ∧
              x.state = .unackCleared ∧ x.priority = 2 ∧ x.place = valvePlace s.table v)) ∧
        (¬unplanned → t.outages = s.outages) ∧
        (moved → s.alarms.general.length < 125 → ∃ x ∈ t.alarms.general, x.kind = .valveHeldMoved ∧ x.object = v.val ∧
          x.state = .unackActive ∧ x.priority = 1) ∧
        (∀ n x, held n x → moved → old.recloseUsed = false → x.state.recloses = true → ¬marked →
          t.valveLive[v].recloseUsed = true ∧
          (∃ y, t.plan? n = some y ∧ y.state = .executing ∧ y.proofDeadline = none) ∧
          ((∀ (k : Fin 64) (o : Order), s.switching.records[k] = some o → o.valve = v → o.state.nonFinal = false) →
            (∃ k : Fin 64, ∀ o, s.switching.records[k] = some o → o.state.nonFinal = false) →
            ∃ o, t.liveOrderOf n o ∧ o.valve = v ∧ o.action = .closeValve ∧ o.reclose = true)) ∧
        (∀ n x, held n x → moved → old.recloseUsed = true → x.committed = true → x.state.mayReplan = true → t.replans n) ∧
        (∀ n x, held n x → pos = .closed →
          ((∃ c ∈ x.close, c.valve = v) → (∀ d ∈ x.done, d.valve ≠ v) → ∃ y, t.plan? n = some y ∧
            y.done.map (fun d => d.valve) = x.done.map (fun d => d.valve) ++ [v]) ∧
          ((∀ y ∈ s.planner.plans, y.state = .executing → v ∉ y.recloseWaiting ∧ (∀ c ∈ y.close, c.valve = v →
              y.number = n ∨ ∃ d ∈ y.done, d.valve = v)) →
            ∀ m o, t.liveOrderOf m o → o.valve = v → o.action ≠ .closeValve)))

/-- ORDER ACCEPT, ORDER FAIL and CREW FAIL (R118, R121, R123): NO_SUCH_OBJECT for a valve that is not present, STATE_REFUSED
for a reason that is none of the three, LATE where no order in flight has the tag and the valve, and then nothing changes.
ACCEPT takes a SENT order to ACCEPTED with its travel deadline and leaves an ACCEPTED one; FAIL ends the order with the
fault its reason names. Stated where no two orders in flight share a tag. That the reply stands ahead of the notices is
the model's choice (notes/assumptions/13.md), as are the codes of the reasons (notes/assumptions/29.md). -/
def Obligations.OrderAcceptAndFailMoveTheOrder : Prop :=
  (∀ (s : State) (p : Port) (seq tag : Byte) (valve : Half), s.ready p 0x03 = true → s.tagsOk →
    let q : Sender := ⟨p, seq, 0x03⟩
    (s.table.presentValve valve = none → exec (.orderAccept p seq tag valve) s = .next (s.answered q .noSuchObject [])) ∧
    (∀ v, s.table.presentValve valve = some v →
      ((∀ (k : Fin 64) (o : Order), s.switching.records[k] = some o → ¬o.answers .remote tag v) →
        exec (.orderAccept p seq tag valve) s = .next (s.answered q .late [])) ∧
      (∀ (k : Fin 64) (o : Order), s.switching.records[k] = some o → o.answers .remote tag v →
        (o.state = .accepted → exec (.orderAccept p seq tag valve) s = .next (s.answered q .ok [])) ∧
        (o.state = .sent →
          ∃ t, exec (.orderAccept p seq tag valve) s = .next t ∧ repliedNext s t q .ok [] ∧ Untouched s t ∧
            valvesKept s t ∧ fieldKept s t ∧ t.calls.calls = s.calls.calls ∧
            t.switching.records[k] = some { o with
              state := .accepted, deadline := some (s.now + BitVec.ofNat 32 (s.table.valves[v].travel * 1000)) } ∧
            ∀ (j : Fin 64) (o' : Order), j ≠ k → s.switching.records[j] = some o' → o'.state.inFlight = true →
              t.switching.records[j] = some o')))) ∧
  (∀ (s : State) (p : Port) (seq tag : Byte) (valve : Half) (reason : Byte) (crew : Bool),
    let cmd : Instr := if crew then .crewFail p seq tag valve reason else .orderFail p seq tag valve reason
    let q : Sender := ⟨p, seq, if crew then 0x0D else 0x05⟩
    let path : OrderPath := if crew then .crew else .remote
    s.ready p q.kind = true → s.tagsOk →
    (s.table.presentValve valve = none → exec cmd s = .next (s.answered q .noSuchObject [])) ∧
    (∀ v, s.table.presentValve valve = some v →
      (reasonOf reason = none → exec cmd s = .next (s.answered q .stateRefused [])) ∧
      (∀ f, reasonOf reason = some f →
        ((∀ (k : Fin 64) (o : Order), s.switching.records[k] = some o → ¬o.answers path tag v) →
          exec cmd s = .next (s.answered q .late [])) ∧
        (∀ (k : Fin 64) (o : Order), s.switching.records[k] = some o → o.answers path tag v →
          ∃ t, exec cmd s = .next t ∧ repliedNext s t q .ok [] ∧
            orderFails s t k o .failed s.valveLive[v].position f))))

/-- ORDER DONE and CREW DONE (R113, R118, R120, R123, R141): refused for a valve that is not present and a position that is
neither OPEN nor CLOSED. In answer to an order in flight the order is DONE with the position its action asks for: a CLOSE
puts its valve on the done list of its plan, an OPEN reopens the entry. With the other position it FAILS with STUCK.
Without such an order the reply is LATE, the position is written, the fault stays, orders in flight stay as they are, and
a QUEUED order stays live unless the report moves a held CLOSED valve, whose plan may then replan. What of the report's
case a late DONE takes is the model's reading (notes/assumptions/37.md). Its choices: the reply stands ahead of the notices
(notes/assumptions/13.md), and where the event asks for a hypothetical pass too, the published one starts first
(notes/assumptions/12.md). -/
def Obligations.OrderDoneEndsTheOrder : Prop :=
  ∀ (s : State) (p : Port) (seq tag : Byte) (valve : Half) (position : Byte) (crew : Bool),
    let cmd : Instr := if crew then .crewDone p seq tag valve position else .orderDone p seq tag valve position
    let q : Sender := ⟨p, seq, if crew then 0x0C else 0x04⟩
    let path : OrderPath := if crew then .crew else .remote
    s.ready p q.kind = true → s.tagsOk →
    (s.table.presentValve valve = none → exec cmd s = .next (s.answered q .noSuchObject [])) ∧
    (∀ v, s.table.presentValve valve = some v → endPositionOf position = none →
      exec cmd s = .next (s.answered q .stateRefused [])) ∧
    (∀ v pos, s.table.presentValve valve = some v → endPositionOf position = some pos →
      (∀ (k : Fin 64) (o : Order), s.switching.records[k] = some o → o.answers path tag v →
        let fits := (o.action = .closeValve ∧ pos = .closed) ∨ (o.action = .openValve ∧ pos = .opened)
        ∃ t, exec cmd s = .next t ∧ repliedNext s t q .ok [] ∧
          (¬fits → orderFails s t k o .failed pos .stuck) ∧
          (fits →
            recordEnds t k { o with state := .done, deadline := none, endStamp := some s.now } ∧
            valveMoves s t v pos s.valveLive[v].fault ∧ Untouched s t ∧ fieldKept s t ∧ t.calls.calls = s.calls.calls ∧
            (o.action = .closeValve → s.noRestoring → s.plansOk = true → ∀ x, s.plan? o.plan = some x →
              ∃ y, t.plan? o.plan = some y ∧ y.done.map (fun d => d.valve) =
                if o.reclose = true ∨ ∃ d ∈ x.done, d.valve = v then x.done.map (fun d => d.valve)
                else x.done.map (fun d => d.valve) ++ [v]) ∧
            (o.action = .openValve → s.plansOk = true → ∀ x, s.plan? o.plan = some x → (∃ d ∈ x.done, d.valve = v) →
              t.plan? o.plan = none ∨
                ∃ y, t.plan? o.plan = some y ∧ ∀ d ∈ y.done, d.valve = v → d.progress = .reopened))) ∧
      ((∀ (k : Fin 64) (o : Order), s.switching.records[k] = some o → ¬o.answers path tag v) → s.noRestoring →
        s.plansOk = true →
        ∃ t, exec cmd s = .next t ∧ repliedNext s t q .late [] ∧ Untouched s t ∧
          valveMoves s t v pos s.valveLive[v].fault ∧ t.stationLive = s.stationLive ∧ t.feedState = s.feedState ∧
          t.calls = s.calls ∧
          (∀ (k : Fin 64) (o : Order), s.switching.records[k] = some o → o.state.inFlight = true →
            t.switching.records[k] = some o) ∧
          (s.valveLive[v].claim = none ∨ s.valveLive[v].position ≠ .closed ∨ pos = .closed →
            ∀ (k : Fin 64) (o : Order), s.switching.records[k] = some o → o.state = .queued → ∃ o',
              t.switching.records[k] = some o' ∧ (o' = o ∨ o' = { o with
                state := .sent, port := o'.port, deadline := o'.deadline })) ∧
          ∀ x ∈ s.planner.plans, ∃ y, t.plan? x.number = some y ∧ y.done = x.done))

/-- The deadlines of orders (R119, R123): a SENT remote order fails with COMMS, an ACCEPTED one and a SENT crew task time out
with TRAVEL_TIMEOUT and their valve UNKNOWN. Stated where no two orders in flight share a tag. The model's choices: nothing
happens with no such order at its deadline (notes/assumptions/6.md), and where the event asks for a hypothetical pass too,
the published one starts first (notes/assumptions/12.md). -/
def Obligations.OrderDeadlinesRunOut : Prop :=
  ∀ (s : State) (tag : Byte), s.tagsOk →
    let due (o : Order) (path : OrderPath) (st : OrderState) : Prop :=
      o.path = path ∧ o.state = st ∧ o.tag = tag.toNat ∧ expired s.now o.deadline = true
    let nothing (path : OrderPath) (st : OrderState) : Prop :=
      ∀ (k : Fin 64) (o : Order), s.switching.records[k] = some o → ¬due o path st
    (nothing .remote .sent → exec (.acceptDeadlineExpiry tag) s = .next { s with events := s.events + 1 }) ∧
    (nothing .remote .accepted → exec (.travelDeadlineExpiry tag) s = .next { s with events := s.events + 1 }) ∧
    (nothing .crew .sent → exec (.crewTaskDeadlineExpiry tag) s = .next { s with events := s.events + 1 }) ∧
    (∀ (k : Fin 64) (o : Order), s.switching.records[k] = some o →
      (due o .remote .sent → ∃ t, exec (.acceptDeadlineExpiry tag) s = .next t ∧ portsGrow s t ∧
        orderFails s t k o .failed s.valveLive[o.valve].position .comms) ∧
      (due o .remote .accepted → ∃ t, exec (.travelDeadlineExpiry tag) s = .next t ∧ portsGrow s t ∧
        orderFails s t k o .timedOut .unknown .travelTimeout) ∧
      (due o .crew .sent → ∃ t, exec (.crewTaskDeadlineExpiry tag) s = .next t ∧ portsGrow s t ∧
        orderFails s t k o .timedOut .unknown .travelTimeout))

/-- CLEAR FAULT (R12, R126): NO_SUCH_OBJECT for a valve that is not present; nothing on a valve without a fault; otherwise the
fault becomes NONE, the revision moves, and VALVE_FAULT is cleared. Stated where no plan is RESTORING. That the last
change stamp moves with it is the model's reading of R8 (notes/assumptions/30.md), and that the reply stands ahead of the
notices its choice (notes/assumptions/13.md). -/
def Obligations.ClearFaultClearsTheFault : Prop :=
  ∀ (s : State) (p : Port) (seq : Byte) (valve : Half), s.ready p 0x1B = true →
    let q : Sender := ⟨p, seq, 0x1B⟩
    (s.table.presentValve valve = none → exec (.clearFault p seq valve) s = .next (s.answered q .noSuchObject [])) ∧
    (∀ v, s.table.presentValve valve = some v →
      (s.valveLive[v].fault = .noFault → exec (.clearFault p seq valve) s = .next (s.answered q .ok [])) ∧
      (s.valveLive[v].fault ≠ .noFault → s.noRestoring →
        ∃ t, exec (.clearFault p seq valve) s = .next t ∧ repliedNext s t q .ok [] ∧ portsGrow (s.heard p) t ∧
          Untouched s t ∧ fieldKept s t ∧ t.calls = s.calls ∧ t.revision = s.revision + 1 ∧
          t.valveLive = upd s.valveLive v (fun l => { l with fault := .noFault, lastChange := s.now }) ∧
          (s.alarmsOk = true → ∀ x ∈ t.alarms.general, x.kind = .valveFault → x.object = v.val → x.state = .unackCleared)))

/-! ## Proving -/

/-- A publication at proving (R131 to R134, R137): a plan that awaited this generation is judged: gas in its region makes it
replan, no GOOD station in the region leaves it UNPROVEN with its alarm, and otherwise it is PROVING with a deadline. Of
the other plans, one in PROVING, PROVEN, LET_BY or UNPROVEN with gas in its region replans, and one that is at rest keeps
its state. Stated where no plan is RESTORING. That a delivery which is not the next for proving does nothing is the
model's choice (notes/assumptions/4.md). -/
def Obligations.DecisivePublicationJudgesThePlan : Prop :=
  (∀ s : State, (∀ pub rest, s.tracer.deliveries ≠ (.proving, pub) :: rest) →
    exec .publicationProving s = .next { s with events := s.events + 1 }) ∧
  (∀ (s : State) (pub : Publication) (rest : List (Reactor × Publication)),
    s.tracer.deliveries = (.proving, pub) :: rest → s.noRestoring → s.plansOk = true →
      ∃ t, exec .publicationProving s = .next t ∧ t.tracer.deliveries = rest ∧ Untouched s t ∧ portsGrow s t ∧
        t.valveLive = s.valveLive ∧ fieldKept s t ∧ t.calls = s.calls ∧
        ∀ x ∈ s.planner.plans,
          let decisive := x.awaiting = true ∧ x.awaitedGeneration = some pub.generation
          let counted := ∃ i : StationId, s.countsFor x i
          (decisive → s.gasIn x → x.committed = true → t.replans x.number) ∧
          (decisive → ¬s.gasIn x → ¬counted → ∃ y, t.plan? x.number = some y ∧ y.state = .unproven ∧ y.awaiting = false ∧
            y.proofDeadline = none ∧ (s.alarms.general.length < 119 → ∃ a ∈ t.alarms.general,
              a.kind = .isolationUnproven ∧ a.object = x.number ∧ a.state = .unackActive ∧ a.priority = 2)) ∧
          (decisive → ¬s.gasIn x → counted → ∃ y, t.plan? x.number = some y ∧ y.state = .proving ∧ y.awaiting = false ∧
            y.confirmedBy = none ∧
            y.proofDeadline = some (s.now + BitVec.ofNat 32 (s.table.params.provingWindow * 1000))) ∧
          (¬decisive → x.state.watched = true → s.gasIn x → x.committed = true → t.replans x.number) ∧
          (¬decisive → x.state.computes = false → x.state.watched = false ∨ ¬s.gasIn x →
            ∃ y, t.plan? x.number = some y ∧ y.state = x.state ∧ y.proofDeadline = x.proofDeadline))

/-- A reading or a quality that decides a proof (R131, R135, R137): after a GOOD reading of a station of its region a plan in
PROVING is PROVEN where every GOOD station of the region is at or below the proving level, and is left in PROVING where one is
above it; where the last GOOD station of the region is lost, by a FAILED reading or its staleness deadline, it is UNPROVEN.
Stated where no plan is RESTORING. -/
def Obligations.PressuresProveThePlan : Prop :=
  ∀ (s : State) (i : StationId) (x : Plan), s.plansOk = true → s.noRestoring →
    x ∈ s.planner.plans → x.state = .proving → s.table.stations[i].present = true →
    (∃ g ∈ x.segs, s.table.stations[i].location = .seg g) →
    (∀ (p : Port) (seq station : Byte) (raw : Half), s.ready p 0x01 = true → s.table.presentStation station = some i →
      ∃ t y, exec (.reading p seq station raw 0) s = .next t ∧ t.plan? x.number = some y ∧
        let low := ∀ j : StationId, t.countsFor x j → t.stationLive[j].pressure ≤ s.table.params.provingLevel
        (low → y = { x with state := .proven, proofDeadline := none, confirmedBy := none }) ∧ (¬low → y = x)) ∧
    (∀ (p : Port) (seq station : Byte) (raw : Half) (quality : Byte), s.ready p 0x01 = true →
      s.table.presentStation station = some i → 1 < quality.toNat → s.stationLive[i].quality = .good →
      ∃ t y, exec (.reading p seq station raw quality) s = .next t ∧ t.plan? x.number = some y ∧
        ((∀ j : StationId, ¬t.countsFor x j) → y = { x with state := .unproven, proofDeadline := none }) ∧
        ((∃ j : StationId, t.countsFor x j) → y = x)) ∧
    (expired s.now s.stationLive[i].staleness = true → s.stationLive[i].quality = .good →
      ∃ t y, exec (.stalenessDeadlineExpiry i) s = .next t ∧ t.plan? x.number = some y ∧
        ((∀ j : StationId, ¬t.countsFor x j) → y = { x with state := .unproven, proofDeadline := none }) ∧
        ((∃ j : StationId, t.countsFor x j) → y = x))

/-! ## Outages -/

/-- A publication at the Outage Register (R145 to R150, R152). A segment is off in some record exactly when it is published
ISOLATED or DEAD with customers, and in one record only where it was in at most one; the one exception are the segments
that a CLOSED record, closed by CLOSE OUTAGE, still had off and would keep: that record is freed, and they are in none
until the next publication. Customers off are the sum over the off set; a segment that has its gas back awaits relight in
a record that was not CLOSED; CLOSED records are freed; a record with nothing off and nobody to relight closes; the group
of a plan goes into its record; the notes are settled. The model's choices: a delivery that is not the next for it does
nothing (notes/assumptions/4.md), and an absent segment, or one without customers, leaves the off set before the test of
returned gas (notes/assumptions/38.md). -/
def Obligations.PublicationPlacesLostSegments : Prop :=
  (∀ s : State, (∀ pub rest, s.tracer.deliveries ≠ (.outages, pub) :: rest) →
    exec .publicationOutages s = .next { s with events := s.events + 1 }) ∧
  (∀ (s : State) (pub : Publication) (rest : List (Reactor × Publication)),
    s.tracer.deliveries = (.outages, pub) :: rest →
      let was (k : OutageId) (o : Outage) : Prop := s.outages.records[k] = some o
      let settled (n : Option CauseNote) : Option CauseNote := match n with
        | none => none
        | some c => if pub.order < c.firstOrder then some c else if c.lastOrder ≤ pub.order then none
          else some ⟨c.lastStamp, c.lastOrder, c.lastStamp, c.lastOrder⟩
      ∃ t, exec .publicationOutages s = .next t ∧
        t = { s with
          events := s.events + 1, tracer := { s.tracer with deliveries := rest }
          outages := { records := t.outages.records, feedNote := settled s.outages.feedNote
                       movementNote := settled s.outages.movementNote }
          alarms := t.alarms, ports := t.ports } ∧ portsGrow s t ∧
        let has (k : OutageId) (o : Outage) : Prop := t.outages.records[k] = some o
        let stuck (g : SegId) : Prop := ∃ k o, was k o ∧ o.state = .closed ∧ g ∈ o.off ∧ s.lost g ∧
          ∀ n, o.cause = .plan n → ∃ x, s.plan? n = some x ∧ x.committed = true ∧ (g ∈ x.segs ∨ g ∈ x.collateral)
        (∀ g : SegId, (∃ k o, has k o ∧ g ∈ o.off) → s.lost g) ∧
        (∀ g : SegId, s.lost g → ¬stuck g → ∃ k o, has k o ∧ g ∈ o.off) ∧
        (∀ g : SegId, stuck g → (∀ k k' o o', was k o → was k' o' → g ∈ o.off → g ∈ o'.off → k = k') →
          ∀ k o, has k o → g ∉ o.off) ∧
        ((∀ g k k' o o', was k o → was k' o' → g ∈ o.off → g ∈ o'.off → k = k') → ∀ g k k' o o',
          has k o → has k' o' → g ∈ o.off → g ∈ o'.off → k = k') ∧
        (∀ k o, has k o →
          o.customersOff = (o.off.map (fun g => s.table.segs[g].customers)).sum ∧
          (o.state = .active → o.off ≠ []) ∧
          (o.state = .relighting → o.off ≠ [] ∨ 0 < (o.relight.map (fun r => r.awaiting)).sum) ∧
          (o.state = .closed → o.off = [] ∧ (o.relight.map (fun r => r.awaiting)).sum = 0 ∧ o.endStamp = some s.now)) ∧
        (∀ k o, was k o → o.state = .closed → k ≠ 31 → t.outages.records[k] = none) ∧
        (∀ k o g, was k o → o.state ≠ .closed → g ∈ o.off → s.table.segs[g].present = true →
          0 < s.table.segs[g].customers → s.segLive[g].supply = .live ∨ s.segLive[g].supply = .uncertain →
          ∃ o', has k o' ∧ (⟨g, s.table.segs[g].customers⟩ : RelightEntry) ∈ o'.relight ∧
            o'.startStamp = o.startStamp ∧ o'.relit = o.relit) ∧
        (∀ g x, s.lost g → (∀ k o, was k o → g ∉ o.off) → x ∈ s.planner.plans → x.committed = true → g ∈ x.segs →
          (∀ y ∈ s.planner.plans, y ≠ x → g ∉ y.segs) →
          ∃ k o, has k o ∧ g ∈ o.off ∧ (o.cause = .plan x.number ∨ (k = 31 ∧ o.merged = true))) ∧
        ((∀ k o, ¬was k o) → (∀ x ∈ s.planner.plans, x.committed = false) →
          (∀ k : OutageId, k ≠ 0 → t.outages.records[k] = none) ∧
          ((∃ g, s.lost g) → ∃ o, t.outages.records[(0 : OutageId)] = some o ∧ o.state = .active ∧ o.relight = [] ∧
            o.startStamp = pub.stamp ∧ o.endStamp = none ∧ o.merged = false ∧ o.relit = 0 ∧
            o.cause = (if s.outages.feedNote.any (fun c => c.firstOrder ≤ pub.order) then .feedFailure
              else if s.outages.movementNote.any (fun c => c.firstOrder ≤ pub.order) then .valveMovement else .unknown))) ∧
        (s.alarms.general.length < 90 → ∀ k o, has k o → (∀ o', ¬was k o') → o.state = .active →
          s.table.params.largeOutage ≤ o.customersOff → ∃ a ∈ t.alarms.general, a.kind = .largeOutage ∧
            a.object = k.val ∧ a.state = .unackActive ∧ a.priority = 1 ∧ a.place = o.place))

/-- RELIGHT REPORT and CLOSE OUTAGE (R151 to R153, R182). The first is refused for a record not held, one that is CLOSED, a
segment not in its relight set, and a count of 0; otherwise the count, at most what awaits, moves to the relight total, an
entry with none left leaves the set, and a record with nothing off and nobody awaiting is CLOSED. The second is refused
for a record not held and one that is not RELIGHTING; otherwise the record is CLOSED with its end stamp and its
LARGE_OUTAGE is cleared. The model's choices: the replies stand ahead of the notices (notes/assumptions/13.md), and the
relight total goes on rising past 32 bits (notes/assumptions/67.md). -/
def Obligations.RelightAndCloseEndTheRecord : Prop :=
  (∀ (s : State) (p : Port) (seq record segment : Byte) (count : Half), s.ready p 0x0B = true → s.mode = .operating →
    let cmd : Instr := .relightReport p seq record segment count
    let q : Sender := ⟨p, seq, 0x0B⟩
    let g : SegId := segment.toFin
    ((∀ (k : OutageId) (o : Outage), s.outages.records[k] = some o → k.val ≠ record.toNat) →
      exec cmd s = .next (s.answered q .noSuchObject [])) ∧
    (∀ (k : OutageId) (o : Outage), s.outages.records[k] = some o → k.val = record.toNat →
      (o.state = .closed ∨ (∀ r ∈ o.relight, r.seg ≠ g) ∨ count = 0 → exec cmd s = .next (s.answered q .stateRefused [])) ∧
      (∀ r ∈ o.relight, r.seg = g → (o.relight.map (fun x => x.seg)).Nodup → o.state ≠ .closed → count ≠ 0 →
        let amount := min count.toNat r.awaiting
        let left := if amount = r.awaiting then o.relight.filter (fun x => x.seg != g)
          else o.relight.map (fun x => if x.seg == g then ⟨g, r.awaiting - amount⟩ else x)
        let ends := o.off = [] ∧ (left.map (fun x => x.awaiting)).sum = 0
        ∃ t, exec cmd s = .next t ∧
          t = { s with
            events := s.events + 2
            outages := { s.outages with records := upd s.outages.records k (fun _ => some { o with
              relight := left, relit := o.relit + amount
              state := if ends then .closed else o.state
              endStamp := if ends then some s.now else o.endStamp }) }
            alarms := t.alarms, ports := t.ports } ∧
          repliedNext s t q .ok (u16 amount ++ u16 (r.awaiting - amount)) ∧ portsGrow (s.heard p) t))) ∧
  (∀ (s : State) (p : Port) (seq record : Byte), s.ready p 0x27 = true → s.mode = .operating →
    let q : Sender := ⟨p, seq, 0x27⟩
    ((∀ (k : OutageId) (o : Outage), s.outages.records[k] = some o → k.val ≠ record.toNat) →
      exec (.closeOutage p seq record) s = .next (s.answered q .noSuchObject [])) ∧
    (∀ (k : OutageId) (o : Outage), s.outages.records[k] = some o → k.val = record.toNat →
      (o.state ≠ .relighting → exec (.closeOutage p seq record) s = .next (s.answered q .stateRefused [])) ∧
      (o.state = .relighting →
        ∃ t, exec (.closeOutage p seq record) s = .next t ∧
          t = { s with
            events := s.events + 2
            outages := { s.outages with
              records := upd s.outages.records k (fun _ => some { o with state := .closed, endStamp := some s.now }) }
            alarms := t.alarms, ports := t.ports } ∧
          repliedNext s t q .ok [] ∧ portsGrow (s.heard p) t ∧
          (s.alarmsOk = true →
            ∀ a ∈ t.alarms.general, a.kind = .largeOutage → a.object = k.val → a.state = .unackCleared))))

/-! ## Alarms and the panel -/

/-- ACK (R156, R160, R161, R163): refused for an undefined kind and for a record not held. An active record becomes
ACK_ACTIVE, one cleared already leaves the list, and one acknowledged stays; each change moves the change count. A general
record that leaves clears the OVERFLOW condition. That the reply stands ahead of the alarm's notice is the model's choice
(notes/assumptions/13.md). -/
def Obligations.AckMovesTheRecord : Prop :=
  ∀ (s : State) (p : Port) (seq kind : Byte) (object : Half), s.ready p 0x28 = true → s.alarmsOk = true →
    let cmd : Instr := .ack p seq kind object
    let q : Sender := ⟨p, seq, 0x28⟩
    let a := s.alarms
    let becomes (b : AlarmList) : Prop := ∃ t, exec cmd s = .next t ∧
      t = { s with events := s.events + 2, alarms := { b with changeCount := a.changeCount + 1 }, ports := t.ports } ∧
      repliedNext s t q .ok [] ∧ portsGrow (s.heard p) t
    (alarmKindOf kind = none → exec cmd s = .next (s.answered q .stateRefused [])) ∧
    (∀ k, alarmKindOf kind = some k → (∀ r ∈ a.all, ¬(r.kind = k ∧ r.object = object.toNat)) →
      exec cmd s = .next (s.answered q .noSuchObject [])) ∧
    (∀ r ∈ a.general, alarmKindOf kind = some r.kind → r.kind ≠ .overflow → r.object = object.toNat →
      (r.state = .ackActive → exec cmd s = .next (s.answered q .ok [])) ∧
      (r.state = .unackActive →
        becomes { a with general := a.general.map (fun x => if x == r then { r with state := .ackActive } else x) }) ∧
      (r.state = .unackCleared →
        let gone : AlarmList := { a with general := a.general.filter (fun x => x != r) }
        match a.overflow with
        | none => becomes gone
        | some o => match o.state with
          | .unackActive => becomes { gone with overflow := some { o with state := .unackCleared } }
          | .ackActive => becomes { gone with overflow := none, overflowCount := 0 }
          | .unackCleared => becomes gone)) ∧
    (∀ r, a.overflow = some r → alarmKindOf kind = some .overflow → r.kind = .overflow → r.object = object.toNat →
      (r.state = .ackActive → exec cmd s = .next (s.answered q .ok [])) ∧
      (r.state = .unackActive → becomes { a with overflow := some { r with state := .ackActive } }) ∧
      (r.state = .unackCleared → becomes { a with overflow := none, overflowCount := 0 }))

/-- SUBSCRIBE and SILENCE (R164, R168, R180): a list of another length than its count is BAD_LENGTH, and one of more than four
districts, or with one above 15, is refused; otherwise the port's subscriptions are the districts given, each once and in
their order, and nothing else changes. SILENCE sets the silenced mark alone, and the horn is off. That the stored list keeps
the order given, a repeated district at its first place, is the model's choice (notes/assumptions/68.md). -/
def Obligations.SubscribeAndSilenceSetTheirMarks : Prop :=
  (∀ (s : State) (p : Port) (seq count : Byte) (districts : List Byte), s.ready p 0x29 = true →
    let cmd : Instr := .subscribe p seq count districts
    let q : Sender := ⟨p, seq, 0x29⟩
    (cmd.wf = false → exec cmd s = .next (s.answered q .badLength [])) ∧
    (cmd.wf = true → 4 < districts.length ∨ (∃ d ∈ districts, 15 < d.toNat) →
      exec cmd s = .next (s.answered q .stateRefused [])) ∧
    (cmd.wf = true → districts.length ≤ 4 → (∀ d ∈ districts, d.toNat ≤ 15) →
      ∃ ds : List Nat, ds.Nodup ∧ ds.Sublist (districts.map (fun d => d.toNat)) ∧ (∀ d ∈ districts, d.toNat ∈ ds) ∧
        exec cmd s = .next { s.answered q .ok (u8 ds.length ++ ds.flatMap u8) with
          alarms := { s.alarms with subscriptions := upd s.alarms.subscriptions p (fun _ => ds) } })) ∧
  (∀ (s : State) (p : Port) (seq : Byte), s.ready p 0x2A = true →
    let t : State := { s.answered ⟨p, seq, 0x2A⟩ .ok [] with alarms := { s.alarms with silenced := true } }
    exec (.silence p seq) s = .next t ∧ t.horn = false)

/-! ## Link ports -/

/-- The receiver (R170 to R172, R175): an UNUSED port takes nothing; hunting for SYNC, the LEN byte, the body bytes and the
CRC bytes each move the receive state and set the gap deadline 21 ms on. A LEN out of range is counted, and the part
hunts again. A frame whose CRC fails is counted, its bytes are examined again, and no request comes of it; one whose CRC
agrees runs its request in the same step, or is answered UNKNOWN_KIND or BAD_LENGTH. -/
def Obligations.BytesAssembleFrames : Prop :=
  ∀ (s : State) (p : Port) (b : Byte),
    let cmd : Instr := .receiveByte p b
    let at' (r : Receiver) (f : LinkPort → LinkPort) : State := { s with
      ports := upd s.ports p (fun l => { f l with
        receiver := r, gap := if r = .hunting then none else some (s.now + 21#32) }) }
    (s.ports[p].role = .unused → exec cmd s = .next s) ∧
    (s.ports[p].role ≠ .unused → s.ports[p].backlog = [] →
      (s.ports[p].receiver = .hunting → exec cmd s = .next (at' (if b = 0xC5 then .length else .hunting) id)) ∧
      (s.ports[p].receiver = .length → 2 ≤ b.toNat → b.toNat ≤ 250 → exec cmd s = .next (at' (.body b []) id)) ∧
      (s.ports[p].receiver = .length → b.toNat < 2 ∨ 250 < b.toNat →
        exec cmd s = .next (at' .hunting (fun l => { l with lengthCount := satInc 65535 l.lengthCount }))) ∧
      (∀ len held, s.ports[p].receiver = .body len held →
        exec cmd s = .next (at' (if held.length + 1 = len.toNat then .check len (held ++ [b]) none
          else .body len (held ++ [b])) id)) ∧
      (∀ len held, s.ports[p].receiver = .check len held none → exec cmd s = .next (at' (.check len held (some b)) id)) ∧
      (∀ len held hi, s.ports[p].receiver = .check len held (some hi) → held.length ≤ 250 →
        crc (len :: held) ≠ half hi b →
        let again := len :: held ++ [hi, b]
        let counted := fun l : LinkPort => { l with crcCount := satInc 65535 l.crcCount }
        ((∀ x ∈ again, x ≠ 0xC5) → exec cmd s = .next (at' .hunting counted)) ∧
        (b = 0xC5 → (∀ x ∈ len :: held ++ [hi], x ≠ 0xC5) → exec cmd s = .next (at' .length counted))) ∧
      (∀ len held hi, s.ports[p].receiver = .check len held (some hi) → crc (len :: held) = half hi b →
        let taken : State := { s with ports := upd s.ports p (fun l => { l with receiver := .hunting }) }
        let ended (t : State) : State := { t with ports := upd t.ports p (fun l => { l with gap := none }) }
        (∀ i : Instr, i.wf = true → i.port = p → i.body = some held →
          ∃ t, exec i taken = .next t ∧ exec cmd s = .next (ended t)) ∧
        (∀ kind seq fields, held = kind :: seq :: fields → s.ports[p].state = .up → s.ports[p].hasRoom = true →
          (requestReader p seq kind.toNat = none →
            exec cmd s = .next (ended (taken.answered ⟨p, seq, kind⟩ .unknownKind []))) ∧
          (∀ r, requestReader p seq kind.toNat = some r → r fields = none →
            exec cmd s = .next (ended (taken.answered ⟨p, seq, kind⟩ .badLength []))))))

/-- The gap and liveness deadlines (R172 to R174, R54, R122, R128, R157): a gap that runs out discards the bytes held, counts
them, and hunts. Silence takes an UP port to SILENT with its alarm and its deadline again, withdraws a waiting poll list,
and takes the console's plans from it; silence again takes it to LOST, clears PORT_SILENT, raises PORT_LOST, and fails
every SENT order. Stated where no plan is RESTORING. That a deadline which is not reached does nothing is the model's
choice (notes/assumptions/6.md). -/
def Obligations.GapAndSilenceRunOut : Prop :=
  ∀ (s : State) (p : Port),
    (expired s.now s.ports[p].gap = false ∨ s.ports[p].receiver = .hunting →
      exec (.gapDeadlineExpiry p) s = .next { s with events := s.events + 1 }) ∧
    (expired s.now s.ports[p].gap = true → s.ports[p].receiver ≠ .hunting →
      exec (.gapDeadlineExpiry p) s = .next { s with
        events := s.events + 1
        ports := upd s.ports p (fun l => { l with
          receiver := .hunting, gap := none, abortCount := satInc 65535 l.abortCount }) }) ∧
    (expired s.now s.ports[p].liveness = false ∨ s.ports[p].state = .down ∨ s.ports[p].state = .lost →
      exec (.livenessDeadlineExpiry p) s = .next { s with events := s.events + 1 }) ∧
    (expired s.now s.ports[p].liveness = true → s.noRestoring → s.plansOk = true → s.tagsOk →
      s.ports[p].state = .up ∨ s.ports[p].state = .silent →
      ∃ t, exec (.livenessDeadlineExpiry p) s = .next t ∧ Untouched s t ∧ fieldKept s t ∧ t.calls = s.calls ∧
        (∀ k : Port, k ≠ p → t.ports[k].state = s.ports[k].state ∧ t.ports[k].liveness = s.ports[k].liveness) ∧
        (s.ports[p].state = .up →
          t.ports[p].state = .silent ∧
          t.ports[p].liveness = some (s.now + BitVec.ofNat 32 (s.table.params.silence * 1000)) ∧
          t.valveLive = s.valveLive ∧
          (s.alarms.general.length < 127 → ∃ x ∈ t.alarms.general, x.kind = .portSilent ∧ x.object = p.val ∧
            x.state = .unackActive ∧ x.priority = 2 ∧ x.place = noPlace) ∧
          (s.isTelemetry p → t.poll.waiting = none ∧ ∀ i : StationId, t.poll.overdue[i] = true ↔ s.owing i) ∧
          (s.ports[p].role = .console → ∀ x ∈ s.planner.plans, x.committed = true → x.holder = some p →
            ∃ y, t.plan? x.number = some y ∧
              (∀ k : Port, k ≠ p → s.ports[k].consoleUp = true →
                (∀ j : Port, j < k → j ≠ p → s.ports[j].consoleUp = false) → y.holder = some k ∧ y.frozen = false) ∧
              ((∀ k : Port, k ≠ p → s.ports[k].consoleUp = false) → y.holder = none ∧ y.frozen = true))) ∧
        (s.ports[p].state = .silent →
          t.ports[p].state = .lost ∧ t.ports[p].liveness = none ∧
          (s.alarms.general.length < 127 → ∃ x ∈ t.alarms.general, x.kind = .portLost ∧ x.object = p.val ∧
            x.state = .unackActive ∧ x.priority = 1 ∧ x.place = noPlace) ∧
          (s.alarmsOk = true →
            ∀ x ∈ t.alarms.general, x.kind = .portSilent → x.object = p.val → x.state = .unackCleared) ∧
          (¬s.isTelemetry p → t.valveLive = s.valveLive) ∧
          (s.isTelemetry p → ∀ (k : Fin 64) (o : Order), s.switching.records[k] = some o → o.path = .remote →
            o.state = .sent → recordEnds t k { o with state := .failed, deadline := none, endStamp := some s.now } ∧
              t.valveLive[o.valve].fault = .comms)))

/-- A port comes to UP (R117, R127, R129, R173 to R175, R177): the first valid frame on a port that is DOWN, SILENT or LOST
brings it to UP with its deadline, clears the alarm it stood under, and adopts the frozen plans on a console. A return
from LOST empties the queue: what follows does not depend on what it held. On the telemetry port a return from LOST, or
the first entry to UP, sets the survey-pending mark, and the SURVEY takes the first free entry; a return from SILENT sets
none. The request is then taken as on any UP port: its reply is the last frame of the queue, or where no entry is free the
frame is discarded and counted. Stated with a READ SEGMENT as the frame, where no plan is RESTORING, and for a LOST port
with the limits of R19 on orders in flight. The place of the frames of one event is the model's choice
(notes/assumptions/13.md), and the bytes of the reply its reading (notes/assumptions/40.md). -/
def Obligations.AFrameBringsThePortUp : Prop :=
  ∀ (s : State) (p : Port) (seq segment : Byte),
    s.ports[p].role ≠ .unused → s.ports[p].state ≠ .up → s.noRestoring → s.plansOk = true →
      ∃ t, exec (.readSegment p seq segment) s = .next t ∧ Untouched s t ∧ fieldKept s t ∧ t.calls = s.calls ∧
        t.valveLive = s.valveLive ∧ t.ports[p].state = .up ∧
        t.ports[p].liveness = some (s.now + BitVec.ofNat 32 (s.table.params.silence * 1000)) ∧
        (∀ k : Port, k ≠ p → t.ports[k].state = s.ports[k].state) ∧
        (s.alarmsOk = true → s.ports[p].state ≠ .down → ∀ x ∈ t.alarms.general,
          x.kind = (if s.ports[p].state = .silent then .portSilent else .portLost) → x.object = p.val →
            x.state = .unackCleared) ∧
        (s.ports[p].role = .console → ∀ x ∈ s.planner.plans, x.frozen = true →
          ∃ y, t.plan? x.number = some y ∧ y.holder = some p ∧ y.frozen = false) ∧
        let old := s.ports[p]
        let reply := replyBody seq 0x31 .ok (t.begin.segmentBytes segment.toFin)
        (old.state = .lost →
          (∀ frames, exec (.readSegment p seq segment) { s with
            ports := upd s.ports p (fun l => { l with queue := frames }) } = .next t) ∧
          (s.table.params.remoteLimit ≤ 8 → s.table.params.crewLimit ≤ 16 → ∃ more, t.ports[p].queue = more ++ [reply])) ∧
        (old.state ≠ .lost → ∃ more, t.ports[p].queue = old.queue ++ more ++ [reply] ∨
          (32 ≤ old.entries + more.length ∧ t.ports[p].queue = old.queue ++ more ∧
            t.ports[p].discardCount = satInc 65535 old.discardCount)) ∧
        (s.isTelemetry p →
          (old.state = .lost → [surveyBody] <+: t.ports[p].queue ∧ t.switching.surveyPending = false) ∧
          (old.state = .down → old.entries < 32 →
            old.queue ++ [surveyBody] <+: t.ports[p].queue ∧ t.switching.surveyPending = false) ∧
          (old.state = .down → 32 ≤ old.entries → t.switching.surveyPending = true) ∧
          (old.state = .silent → t.switching.surveyPending = true → s.switching.surveyPending = true))

/-- QUEUE ENTRY FREED and LINK RESET (R17, R54, R127, R176, R177). The first takes the oldest frame out of the queue, and its
entry goes to the SURVEY that waits, then to the waiting POLL LIST, on the telemetry port; a console that owes an ALARM
RESYNC is sent one once its queue holds 16 entries or fewer (stated where no plan is RESTORING). The second empties the
queue and the receive state; the reply to a STORE is no longer owed; its own reply is the first frame of the queue, and an
ALARM RESYNC follows it on a console. The model's choices: on an empty queue the first does nothing
(notes/assumptions/4.md), and what waits for entries is served after the reply to LINK RESET (notes/assumptions/42.md). -/
def Obligations.FreedEntriesAndLinkReset : Prop :=
  (∀ (s : State) (p : Port),
    (s.ports[p].queue = [] → exec (.queueEntryFreed p) s = .next { s with events := s.events + 1 }) ∧
    (∀ frame rest, s.ports[p].queue = frame :: rest → s.noRestoring →
      let room := rest.length + s.ports[p].held < 32
      ∃ t, exec (.queueEntryFreed p) s = .next t ∧ Untouched s t ∧ t.valveLive = s.valveLive ∧ fieldKept s t ∧
        t.calls = s.calls ∧ t.alarms = s.alarms ∧ rest <+: t.ports[p].queue ∧
        (s.isTelemetry p → s.ports[p].state = .up → room → s.switching.surveyPending = true →
          rest ++ [surveyBody] <+: t.ports[p].queue ∧ t.switching.surveyPending = false) ∧
        (∀ w, s.isTelemetry p → s.ports[p].state = .up → room → s.switching.surveyPending = false →
          s.poll.waiting = some w → rest ++ [pollListBody w.1 w.2] <+: t.ports[p].queue ∧ t.poll.waiting = none ∧
            t.poll.listCount = satInc 65535 s.poll.listCount ∧ ∀ i ∈ w.2, t.poll.overdue[i] = false) ∧
        (s.ports[p].role = .console → s.ports[p].resyncMark = true → rest.length + s.ports[p].held ≤ 16 →
          t.ports[p].queue = rest ++ [alarmResyncBody s.alarms] ∧ t.ports[p].resyncMark = false))) ∧
  (∀ (s : State) (p : Port) (seq : Byte), s.ready p 0x30 = true →
    ∃ t, exec (.linkReset p seq) s = .next t ∧ Untouched s t ∧ valvesKept s t ∧ t.calls.calls = s.calls.calls ∧
      fieldKept s t ∧
      [replyBody seq 0x30 .ok []] <+: t.ports[p].queue ∧
      t.ports[p].held = 0 ∧ t.ports[p].receiver = .hunting ∧ t.ports[p].gap = none ∧ t.ports[p].state = .up ∧
      (s.ports[p].role = .console →
        [replyBody seq 0x30 .ok [], alarmResyncBody s.alarms] <+: t.ports[p].queue ∧
          (s.noRestoring → t.ports[p].resyncMark = false)) ∧
      t.store.state = (match s.store.state with
        | .writing (some (k, r)) => if k = p then .writing none else .writing (some (k, r))
        | other => other))

/-! ## Reads -/

/-- The nine reads (R184, R185): each answers and changes nothing but its port's queue. READ SEGMENT and READ CALL are spelled
out, field by field; the other records and pages are those of Machine/Reads.lean, in the order R184 lists them. The layout
of these bytes is the model's reading (notes/assumptions/40.md), the 4 bytes of a call's arrival sequence and an incident's
opening sequence its choice (notes/assumptions/69.md), and what a READ PLAN adds for the plan's final order records a free
value (notes/assumptions/53.md). A number beyond the last, a plan, incident or call not held, and an undefined list are
refused. -/
def Obligations.ReadsAnswerAndChangeNothing : Prop :=
  ∀ (s : State) (p : Port) (seq : Byte), s.ports[p].state = .up → s.ports[p].hasRoom = true → s.ports[p].role ≠ .unused →
    let answers (cmd : Instr) (kind : Byte) (code : ReplyCode) (result : List Byte) : Prop :=
      exec cmd s = .next (s.answered ⟨p, seq, kind⟩ code result)
    let e := s.atBlock p
    (∀ segment, let g : SegId := segment.toFin
      let here := stationsAt s.table (.seg g)
      answers (.readSegment p seq segment) 0x31 .ok (
        [if s.table.segs[g].present then 0 else 1] ++ [s.table.segs[g].zone] ++ u16 s.table.segs[g].customers ++
        countByte here.length ++ here.map (fun k => BitVec.ofNat 8 k.val) ++ u8 s.segLive[g].supply.code ++
        w32 s.segLive[g].changed ++ w32 s.tracer.generation ++ u8 s.tracer.engine.code ++
        [if s.tracer.rerun then 1 else 0])) ∧
    (∀ valve, (512 ≤ valve.toNat → answers (.readValve p seq valve) 0x32 .noSuchObject []) ∧
      ∀ v : ValveId, v.val = valve.toNat → answers (.readValve p seq valve) 0x32 .ok
        (s.table.valves[v].bytes ++ s.valveLive[v].bytes ++ orderRecordBytes (e.shownOrder v))) ∧
    (∀ station, (128 ≤ station.toNat → answers (.readStation p seq station) 0x33 .noSuchObject []) ∧
      ∀ i : StationId, i.val = station.toNat → answers (.readStation p seq station) 0x33 .ok
        (s.table.stations[i].bytes ++ s.stationLive[i].bytes ++ u8 s.poll.tiers[i] ++
          [if s.poll.overdue[i] then 1 else 0])) ∧
    (∀ plan list start, (s.plan? plan.toNat = none → answers (.readPlan p seq plan list start) 0x34 .noSuchObject []) ∧
      (∀ x, s.plan? plan.toNat = some x → planListOf list = none →
        answers (.readPlan p seq plan list start) 0x34 .stateRefused []) ∧
      (∀ x l, s.plan? plan.toNat = some x → planListOf list = some l →
        answers (.readPlan p seq plan list start) 0x34 .ok (e.planPage x l start.toNat))) ∧
    (∀ incident start,
      (incident = 0 → answers (.readIncident p seq incident start) 0x35 .ok (countByte s.calls.incidents.length ++
        s.calls.incidents.flatMap (fun i => u8 i.number ++ u8 i.state.code ++ u8 i.grade))) ∧
      (incident ≠ 0 → s.incident? incident.toNat = none →
        answers (.readIncident p seq incident start) 0x35 .noSuchObject []) ∧
      (∀ i, incident ≠ 0 → s.incident? incident.toNat = some i →
        answers (.readIncident p seq incident start) 0x35 .ok (e.incidentBytes i start.toNat))) ∧
    (∀ ref, ((∀ c ∈ s.calls.calls, c.ref ≠ ref) → answers (.readCall p seq ref) 0x36 .noSuchObject []) ∧
      ∀ c, s.calls.calls.find? (fun x => x.ref == ref) = some c → answers (.readCall p seq ref) 0x36 .ok
        ([if c.incident.isSome then 1 else 0] ++ w32 c.ref ++ u8 c.segment.val ++ u8 c.grade ++ u8 c.place.code ++ w32 c.arrival ++ u32 c.sequence ++
          u8 c.state.code ++ u8 (c.incident.getD 0))) ∧
    (∀ record list start,
      (32 ≤ record.toNat → answers (.readOutage p seq record list start) 0x37 .noSuchObject []) ∧
      (record.toNat < 32 → outageListOf list = none → answers (.readOutage p seq record list start) 0x37 .stateRefused []) ∧
      (∀ k : OutageId, k.val = record.toNat → ∀ l, outageListOf list = some l →
        (s.outages.records[k] = none → answers (.readOutage p seq record list start) 0x37 .ok freeOutageBytes) ∧
        ∀ o, s.outages.records[k] = some o →
          answers (.readOutage p seq record list start) 0x37 .ok (e.outagePage o l start.toNat))) ∧
    (∀ start, answers (.readAlarms p seq start) 0x38 .ok
      (page s.alarms.all start.toNat 20 s.alarms.changeCount AlarmRec.bytes)) ∧
    (∀ port, (4 ≤ port.toNat → answers (.readPort p seq port) 0x39 .noSuchObject []) ∧
      ∀ k : Port, k.val = port.toNat → answers (.readPort p seq port) 0x39 .ok
        (e.ports[k].bytes s.table.ports[k].role ++ [if s.mode = .operating then 1 else 0] ++
          [if s.store.valid then 1 else 0] ++ [if s.store.lock then 1 else 0] ++ w32 s.revision ++ w32 s.now ++
          e.pollCounts k))

/-! ## Laws of every step -/

/-- Every step keeps the laws of stations, subscriptions and alarms (R6, R156, R158, R164): no span takes a top count above
4,095, in the table or the stored copy; a subscription list holds at most four districts, each 0 to 15, none twice; and the
alarm list holds at most 127 general records, no two of one kind and object. -/
def Obligations.StepsKeepTheTableAndAlarmLaws : Prop :=
  ∀ s t : State, step s = .next t →
    (s.spansOk = true → t.spansOk = true) ∧ (s.subscriptionsOk = true → t.subscriptionsOk = true) ∧
      (s.alarmsOk = true → t.alarmsOk = true)

/-- Every step keeps the laws of calls, incidents and plans (R72 to R74, R77, R80, R90, R91, R93, R132): references and
numbers held once, at most 64 calls, 16 incidents and 8 plans, a segment list of at most 8 segments and none twice, every
incident of the grade its calls give; the planning engine at work only on plans in COMPUTING or REPLANNING, each once; and
only plans in EXECUTING awaiting a publication. -/
def Obligations.StepsKeepCallsAndPlansInOrder : Prop :=
  ∀ s t : State, s.callsOk = true → s.plansOk = true → step s = .next t → t.callsOk = true ∧ t.plansOk = true

/-- Every step keeps the outbound queues within 32 entries, with an entry held empty only for the reply of a running STORE
(R17, R169, R175, R176). -/
def Obligations.StepsKeepTheQueues : Prop :=
  ∀ s t : State, s.queuesOk → step s = .next t → t.queuesOk

/-- Every step keeps the tags of orders that are not final apart (R112). -/
def Obligations.StepsKeepTagsApart : Prop :=
  ∀ s t : State, s.tagsOk → step s = .next t → t.tagsOk

/-- Every step keeps COMMISSIONING free of plans, calls, incidents and orders (R14, R120). -/
def Obligations.StepsKeepCommissioningQuiet : Prop :=
  ∀ s t : State, s.commissioningQuiet → step s = .next t → t.commissioningQuiet

/-- The encoding of requests (R170, R179 to R182): the body written for a request reads back as that request, and every body
that is read as a request is the one written for it, so that no byte of a frame is dropped and no two requests share one. -/
def Obligations.RequestBodiesReadBack : Prop :=
  (∀ (i : Instr) (b : List Byte), i.wf = true → i.body = some b → decodeBody i.port b = .ok i) ∧
  (∀ (p : Port) (b : List Byte) (i : Instr), b.length ≤ 250 → decodeBody p b = .ok i →
    i.body = some b ∧ i.port = p ∧ i.wf = true)
end

