-- ==== Sys2Proof/Laws/Settles.lean ====
section
/-! SUPPORT. What the shared operations can do, said once. `Settles e e'` holds when `e'` is reached from `e` by the
primitive changes below: those the end of an event is made of. Each shared operation has one lemma that it settles; a
property that every primitive keeps is then kept by every operation, and no later proof unfolds one. -/

namespace Sys2Proof.Machine

/-- One primitive change of an event's state at the end of an event. -/
inductive Settle1 : Ev → Ev → Prop
  /-- The event's own marks and logs, but for the revision's mark and the pass completed. -/
  | marks {e e' : Ev} (hs : e'.toState = e.toState) (hb : e'.bumped = e.bumped) (hc : e'.completed = e.completed) :
      Settle1 e e'
  /-- The revision moves, once (R12). -/
  | bump (e : Ev) : Settle1 e e.bump
  /-- A frame takes a free entry of a queue (R176). -/
  | push (e : Ev) (p : Port) (body : List Byte) (room : e.ports[p].hasRoom = true) :
      Settle1 e (e.modPort p (fun l => l.push body))
  /-- A drop is counted, or the alarm-resync mark set or cleared (R176). -/
  | portMark (e : Ev) (p : Port) (f : LinkPort → LinkPort)
      (hf : ∀ l, ∃ d m, f l = { l with dropCount := d, resyncMark := m }) : Settle1 e (e.modPort p f)
  /-- A raise (R158). -/
  | raise (e : Ev) (k : AlarmKind) (obj priority : Nat) (place : Byte) : Settle1 e (e.raise k obj priority place)
  /-- A clear (R159). -/
  | clear (e : Ev) (k : AlarmKind) (obj : Nat) : Settle1 e (e.clear k obj)
  /-- The planner. -/
  | planner (e : Ev) (f : Planner → Planner) : Settle1 e (e.modPlanner f)
  /-- An incident. -/
  | incident (e : Ev) (n : Nat) (f : Incident → Incident) : Settle1 e (e.modIncident n f)
  /-- The tracer's engine and what waits for it; not its generation or its deliveries. -/
  | tracer (e : Ev) (f : Tracer → Tracer)
      (hf : ∀ t, (f t).generation = t.generation ∧ (f t).deliveries = t.deliveries) : Settle1 e (e.modTracer f)
  /-- The Poll Scheduler. -/
  | poll (e : Ev) (f : Poll → Poll) : Settle1 e (e.modPoll f)
  /-- The claim, shared holds and re-close used mark of a valve. -/
  | valve (e : Ev) (v : ValveId) (f : ValveLive → ValveLive)
      (hf : ∀ l, (f l).position = l.position ∧ (f l).fault = l.fault ∧ (f l).lastChange = l.lastChange) :
      Settle1 e (e.modValve v f)
  /-- The survey-pending mark. -/
  | survey (e : Ev) (b : Bool) : Settle1 e (e.modSwitching (fun sw => { sw with surveyPending := b }))
  /-- Order records moved on or freed: none takes another tag, and none that is final becomes non-final. -/
  | orders (e : Ev) (test : Order → Bool) (f : Order → Option Order)
      (hf : ∀ o o', test o = true → f o = some o' → o'.tag = o.tag ∧ (o'.state.nonFinal = true → o.state.nonFinal = true)) :
      Settle1 e (e.modOrders test f)
  /-- An order queued in a record that can be had (R111, R112). -/
  | queueOrder (e : Ev) (w : Want) (i : Fin 64) (h : e.recordFor = some i) : Settle1 e (e.queueOrder w i)

/-- Primitive changes one after another. -/
inductive Settles : Ev → Ev → Prop
  | refl (e : Ev) : Settles e e
  | tail {a b c : Ev} : Settles a b → Settle1 b c → Settles a c

/-- A change of one port that depends on a test of it is one change or the other. -/
theorem Ev.modPort_ite (e : Ev) (p : Port) (c : LinkPort → Bool) (f g : LinkPort → LinkPort) :
    e.modPort p (fun l => if c l then f l else g l) = if c e.ports[p] then e.modPort p f else e.modPort p g := by
  simp only [Ev.modPort, upd]
  split <;> rfl

/-- Issue keeps every port as it is. -/
theorem Ev.issue_ports (e : Ev) (o : Order) (p : Option Port) (d : Stamp) :
    (e.issue o p d).ports = e.ports := rfl

namespace Settles

variable {a b : Ev}

theorem trans {c : Ev} (h : Settles a b) (k : Settles b c) : Settles a c := by
  induction k with
  | refl => exact h
  | tail _ s ih => exact ih.tail s

/-- A property every primitive change keeps is kept. -/
theorem keeps {P : Ev → Prop} (hP : ∀ x y, Settle1 x y → P x → P y) (h : Settles a b) (ha : P a) : P b := by
  induction h with
  | refl => exact ha
  | tail _ s ih => exact hP _ _ s ih

theorem foldl {α : Type} (f : Ev → α → Ev) (hf : ∀ x e, Settles a e → Settles a (f e x)) (xs : List α) :
    ∀ {e : Ev}, Settles a e → Settles a (xs.foldl f e) := by
  induction xs with
  | nil => exact fun h => h
  | cons x xs ih => exact fun h => ih (hf x _ h)

/-! ## Marks and ports -/

theorem triggerPass (h : Settles a b) : Settles a b.triggerPass := h.tail (.marks rfl rfl rfl)
theorem markTiers (h : Settles a b) : Settles a b.markTiers := h.tail (.marks rfl rfl rfl)
theorem markSettle (h : Settles a b) : Settles a b.markSettle := h.tail (.marks rfl rfl rfl)
theorem toAnnounce (h : Settles a b) (n : Nat) : Settles a (b.toAnnounce n) := h.tail (.marks rfl rfl rfl)
theorem announced (h : Settles a b) (n : Nat) : Settles a (b.announced n) := h.tail (.marks rfl rfl rfl)
theorem setWake (h : Settles a b) : Settles a { b with wake := true } := h.tail (.marks rfl rfl rfl)
theorem bump (h : Settles a b) : Settles a b.bump := h.tail (.bump b)
theorem raise (h : Settles a b) (k : AlarmKind) (o pr : Nat) (pl : Byte) : Settles a (b.raise k o pr pl) :=
  h.tail (.raise b k o pr pl)
theorem clear (h : Settles a b) (k : AlarmKind) (o : Nat) : Settles a (b.clear k o) := h.tail (.clear b k o)
theorem raiseOnly (h : Settles a b) (k : AlarmKind) (o pr : Nat) (pl : Byte) : Settles a (b.raiseOnly k o pr pl) :=
  (h.raise k o pr pl).clear k o
theorem modPlanner (h : Settles a b) (f : Planner → Planner) : Settles a (b.modPlanner f) := h.tail (.planner b f)
theorem modPlan (h : Settles a b) (n : Nat) (f : Plan → Plan) : Settles a (b.modPlan n f) := h.modPlanner _
theorem modIncident (h : Settles a b) (n : Nat) (f : Incident → Incident) : Settles a (b.modIncident n f) :=
  h.tail (.incident b n f)
theorem modPoll (h : Settles a b) (f : Poll → Poll) : Settles a (b.modPoll f) := h.tail (.poll b f)

theorem logIncident (h : Settles a b) (n : Nat) (c : IncidentCause) : Settles a (b.logIncident n c) := by
  unfold Ev.logIncident
  split
  · exact h
  · exact h.tail (.marks rfl rfl rfl)

theorem send (h : Settles a b) (p : Port) (body : List Byte) (room : b.ports[p].hasRoom = true) :
    Settles a (b.send p body) := h.tail (.push b p body room)

theorem notify (h : Settles a b) (p : Port) (body : List Byte) : Settles a (b.notify p body) := by
  unfold Ev.notify
  rw [Ev.modPort_ite b p LinkPort.hasRoom]
  split
  · rename_i r
    exact h.tail (.push b p body r)
  · exact h.tail (.portMark b p _ (fun l => ⟨_, l.resyncMark, rfl⟩))

theorem notifyAll (h : Settles a b) (test : LinkPort → Bool) (body : List Byte) : Settles a (b.notifyAll test body) := by
  unfold Ev.notifyAll
  refine foldl _ (fun p e he => ?_) _ h
  split
  · exact he.notify p body
  · exact he

theorem resync (h : Settles a b) (p : Port) : Settles a (b.resync p) := by
  unfold Ev.resync
  rw [Ev.modPort_ite b p LinkPort.hasRoom]
  split
  · rename_i r
    have h2 := (h.tail (.push b p (alarmResyncBody b.alarms) r)).tail
      (.portMark _ p (fun l => { l with resyncMark := false }) (fun l => ⟨l.dropCount, false, rfl⟩))
    have k : (b.modPort p (fun l => l.push (alarmResyncBody b.alarms))).modPort p
        (fun l => { l with resyncMark := false }) =
        b.modPort p (fun l => { l.push (alarmResyncBody b.alarms) with resyncMark := false }) := by
      simp [Ev.modPort, upd]
    exact k ▸ h2
  · exact h.tail (.portMark b p _ (fun l => ⟨l.dropCount, true, rfl⟩))

theorem sendAlarm (h : Settles a b) (body : List Byte) (p : Port) : Settles a (b.sendAlarm body p) := by
  unfold Ev.sendAlarm
  rw [Ev.modPort_ite b p LinkPort.hasRoom]
  split
  · rename_i r
    exact h.tail (.push b p body r)
  · exact h.tail (.portMark b p _ (fun l => ⟨l.dropCount, true, rfl⟩))

theorem portNotice (h : Settles a b) (p : Port) (o n : PortState) (r : Bool) : Settles a (b.portNotice p o n r) :=
  h.notifyAll _ _

theorem planNoticeOf (h : Settles a b) (p : Plan) (c : PlanCause) : Settles a (b.planNoticeOf p c) :=
  (h.notifyAll _ _).announced _

theorem planNotice (h : Settles a b) (n : Nat) (c : PlanCause) : Settles a (b.planNotice n c) := by
  unfold Ev.planNotice
  split
  · exact h
  · exact h.planNoticeOf _ _

theorem announceIncomplete (h : Settles a b) : Settles a b.announceIncomplete :=
  foldl _ (fun _ _ he => he.planNotice _ _) _ h

/-! ## Orders -/

theorem setSurvey (h : Settles a b) (m : Bool) :
    Settles a (b.modSwitching (fun sw => { sw with surveyPending := m })) := h.tail (.survey b m)

theorem withdraw (h : Settles a b) (test : Order → Bool) : Settles a (b.modOrders test (fun _ => none)) :=
  h.tail (.orders b test _ (fun _ _ _ k => by simp at k))

theorem withdrawQueued (h : Settles a b) (n : Nat) (test : Order → Bool) : Settles a (b.withdrawQueued n test) :=
  h.withdraw _

theorem issue (h : Settles a b) (o : Order) (p : Option Port) (d : Stamp) : Settles a (b.issue o p d) := by
  refine h.tail (.orders b _ _ (fun x y hx hy => ?_))
  simp only [Bool.and_eq_true, beq_iff_eq] at hx
  simp only [Option.some.injEq] at hy
  subst hy
  exact ⟨rfl, fun _ => by simp [hx.2, OrderState.nonFinal]⟩

theorem finaliseOrder (h : Settles a b) (o : Order) (st : OrderState) (hst : st.nonFinal = false) :
    Settles a (b.finaliseOrder o st) := by
  refine h.tail (.orders b _ _ (fun x y _ hy => ?_))
  simp only [Option.some.injEq] at hy
  subst hy
  exact ⟨rfl, fun k => by simp [Order.finalise, hst] at k⟩

theorem serveOrders (k : Nat) : ∀ {b : Ev}, Settles a b → Settles a (Ev.serveOrders k b) := by
  induction k with
  | zero => exact fun h => h
  | succ k ih =>
    intro b h
    unfold Ev.serveOrders
    split
    · rename_i hr
      exact ih (h.tail (.queueOrder b _ _ hr))
    · exact h

/-! ## Plans and incidents -/

theorem optClear (h : Settles a b) (o : Option (AlarmKind × Nat)) (n : Nat) :
    Settles a (match o with
      | none => b
      | some x => b.clear x.1 n) := by
  cases o
  · exact h
  · exact h.clear _ _

theorem optRaise (h : Settles a b) (o : Option (AlarmKind × Nat)) (n : Nat) (z : Ev → Byte) :
    Settles a (match o with
      | none => b
      | some x => b.raise x.1 n x.2 (z b)) := by
  cases o
  · exact h
  · exact h.raise _ _ _ _

theorem setPlanState (h : Settles a b) (n : Nat) (st : PlanState) : Settles a (b.setPlanState n st) := by
  unfold Ev.setPlanState
  split
  · exact h
  · rename_i p _
    split
    · exact h
    · have h3 := ((((h.modPlan n (fun q => q.enter st)).markSettle).optClear (stateAlarm p p.state) n).optRaise
        (stateAlarm p st) n (fun e => e.zoneOfIncident p.incident))
      dsimp only
      split
      · exact h3.markTiers
      · exact h3

theorem clearAuthorisations (h : Settles a b) (n : Nat) : Settles a (b.clearAuthorisations n) := h.modPlan n _
theorem enqueuePlan (h : Settles a b) (n : Nat) : Settles a (b.enqueuePlan n) := (h.modPlanner _).setWake
theorem leaveQueue (h : Settles a b) (n : Nat) : Settles a (b.leaveQueue n) := h.modPlanner _
theorem markRerun (h : Settles a b) (n : Nat) : Settles a (b.markRerun n) := h.modPlan n _
theorem freePlan (h : Settles a b) (n : Nat) : Settles a (b.freePlan n) := h.modPlanner _

theorem enterReplanning (h : Settles a b) (n : Nat) : Settles a (b.enterReplanning n) :=
  (((((h.withdrawQueued n _).modPlan n _).clearAuthorisations n).setPlanState n _).enqueuePlan n).planNotice n _

theorem replanTrigger (h : Settles a b) (n : Nat) : Settles a (b.replanTrigger n) := by
  unfold Ev.replanTrigger
  split
  · exact h
  · split
    any_goals exact h.enterReplanning n
    · split
      · exact h.markRerun n
      · exact h
    · exact h

theorem backToComputing (h : Settles a b) (n : Nat) : Settles a (b.backToComputing n) :=
  (((h.clearAuthorisations n).setPlanState n _).enqueuePlan n).planNotice n _

theorem targetChange (h : Settles a b) (n : Nat) : Settles a (b.targetChange n) := by
  unfold Ev.targetChange
  split
  · exact h
  · split
    · exact h.replanTrigger n
    · split
      · split
        · exact h.markRerun n
        · exact h
      any_goals exact h.backToComputing n
      · exact h

theorem markIncidentPlan (h : Settles a b) (i n : Nat) (m : PlanMark) : Settles a (b.markIncidentPlan i n m) := by
  unfold Ev.markIncidentPlan
  split
  · exact h
  · split
    · exact h
    · exact (h.modIncident _ _).logIncident _ _

theorem setIncidentState (h : Settles a b) (n : Nat) (st : IncidentState) : Settles a (b.setIncidentState n st) := by
  unfold Ev.setIncidentState
  split
  · exact h
  · split
    · exact h
    · exact (h.modIncident _ _).logIncident _ _

theorem incidentRestores (h : Settles a b) (n : Nat) : Settles a (b.incidentRestores n) := by
  unfold Ev.incidentRestores
  split
  · exact h
  · split
    · exact h.setIncidentState _ _
    · exact h

/-! ## Claims, holds and restoration -/

theorem setClaim (h : Settles a b) (v : ValveId) (c : Option Nat) : Settles a (b.setClaim v c) := by
  unfold Ev.setClaim
  split
  · exact h
  · exact ((h.tail (.valve b v (fun l => { l with claim := c, recloseUsed := false })
      (fun _ => ⟨rfl, rfl, rfl⟩))).bump).markSettle

theorem setHolds (h : Settles a b) (v : ValveId) (hs : List Nat) : Settles a (b.setHolds v hs) := by
  unfold Ev.setHolds
  split
  · exact h
  · exact ((h.tail (.valve b v (fun l => { l with holds := hs }) (fun _ => ⟨rfl, rfl, rfl⟩))).bump).markSettle

theorem addHold (h : Settles a b) (n : Nat) (v : ValveId) : Settles a (b.addHold n v) := by
  unfold Ev.addHold
  split
  · exact h
  · exact h.setHolds _ _

theorem dropHold (h : Settles a b) (n : Nat) (v : ValveId) : Settles a (b.dropHold n v) := h.setHolds _ _
theorem takeClaim (h : Settles a b) (n : Nat) (v : ValveId) : Settles a (b.takeClaim n v) := (h.setClaim _ _).dropHold _ _
theorem releaseClaim (h : Settles a b) (v : ValveId) : Settles a (b.releaseClaim v) := (h.setClaim _ _).clear _ _

theorem passClaim (h : Settles a b) (g r : Nat) (v : ValveId) : Settles a (b.passClaim g r v) :=
  (((((h.setClaim v _).dropHold r v).clear _ _).modPlan r _).markSettle).planNotice r _

theorem setProgress (h : Settles a b) (n : Nat) (v : ValveId) (p : Progress) : Settles a (b.setProgress n v p) :=
  (h.modPlan n _).markSettle
theorem markIncomplete (h : Settles a b) (n : Nat) (v : ValveId) : Settles a (b.markIncomplete n v) :=
  ((h.setProgress n v _).modPlan n _).toAnnounce n

theorem takeTurns (n k : Nat) : ∀ {b : Ev}, Settles a b → Settles a (Ev.takeTurns n k b) := by
  induction k with
  | zero => exact fun h => h
  | succ k ih =>
    intro b h
    unfold Ev.takeTurns
    split
    · exact h
    · split
      · exact h
      · exact ih ((h.setProgress _ _ _).passClaim _ _ _)
      · exact ih (h.markIncomplete _ _)
      · exact ih (h.setProgress _ _ _)
      · exact h

theorem giveUp (h : Settles a b) (n : Nat) (v : ValveId) : Settles a (b.giveUp n v) := by
  unfold Ev.giveUp
  split
  · exact h.passClaim _ _ _
  · exact h.releaseClaim _

theorem endPlan (h : Settles a b) (p : Plan) : Settles a (b.endPlan p) := by
  have h1 := foldl (a := a) (fun acc v => acc.giveUp p.number v) (fun v e he => he.giveUp _ v)
    (b.claimedBy p.number) h
  have h2 := foldl (a := a) (fun acc v => acc.dropHold p.number v) (fun v e he => he.dropHold _ v)
    (((b.claimedBy p.number).foldl (fun acc v => acc.giveUp p.number v) b).heldBy p.number) h1
  exact (((((h2.setPlanState _ _).modPlan _ _).triggerPass).markIncidentPlan _ _ _).planNotice _ _).freePlan _

theorem restoreOne (h : Settles a b) (n : Nat) : Settles a (b.restoreOne n) := by
  unfold Ev.restoreOne
  split
  · exact h
  · rename_i p0 _
    have h1 := takeTurns n (p0.done.length + 1) h
    dsimp only
    split
    · exact h1
    · split
      · exact h1.endPlan _
      · exact h1

theorem restoreRound (h : Settles a b) : Settles a b.restoreRound :=
  foldl _ (fun n _ he => he.restoreOne n) _ h

theorem restoreRounds (k : Nat) : ∀ {b : Ev}, Settles a b → Settles a (Ev.restoreRounds k b) := by
  induction k with
  | zero => exact fun h => h
  | succ k ih => exact fun h => ih h.restoreRound

theorem restoreAll (h : Settles a b) : Settles a b.restoreAll := restoreRounds _ h

theorem enterRestoring (h : Settles a b) (p : Plan) : Settles a (b.enterRestoring p) := by
  unfold Ev.enterRestoring
  have h4 := ((((((h.modPlan p.number Plan.dropProof).clearAuthorisations p.number).leaveQueue p.number).modPlan p.number
    (fun q => { q with widen := none, rerun := false })).withdrawQueued p.number
      (fun o => o.action == .closeValve)).setPlanState p.number .restoring).incidentRestores p.incident
  dsimp only
  split
  · exact h4
  · exact h4.restoreAll.planNoticeOf _ _

/-! ## Closures and the channels -/

theorem awaitOne (h : Settles a b) (n : Nat) : Settles a (b.awaitOne n) := by
  unfold Ev.awaitOne
  split
  · exact h
  · split
    · exact (h.modPlan _ _).triggerPass
    · split
      · exact h.modPlan _ _
      · exact h

theorem awaitAll (h : Settles a b) : Settles a b.awaitAll := foldl _ (fun n _ he => he.awaitOne n) _ h

theorem telemetryArbiter (k : Nat) : ∀ {b : Ev}, Settles a b → Settles a (Ev.telemetryArbiter k b) := by
  induction k with
  | zero => exact fun h => h
  | succ k ih =>
    intro b h
    unfold Ev.telemetryArbiter
    split
    · split
      · rename_i hc
        exact ih ((h.issue _ _ _).send _ _ (by rw [Ev.issue_ports]; exact hc.2.2.1))
      · exact h
    · exact h

theorem crewArbiter (k : Nat) : ∀ {b : Ev}, Settles a b → Settles a (Ev.crewArbiter k b) := by
  induction k with
  | zero => exact fun h => h
  | succ k ih =>
    intro b h
    unfold Ev.crewArbiter
    split
    · split
      · rename_i hc
        exact ih ((h.issue _ _ _).send _ _ (by rw [Ev.issue_ports]; exact hc.2))
      · exact h
    · exact h

theorem queuePollList (h : Settles a b) (p : Port) (n : Half) (l : List StationId) (room : b.ports[p].hasRoom = true) :
    Settles a (b.queuePollList p n l) := (h.send p _ room).modPoll _

theorem withdrawPollList (h : Settles a b) : Settles a b.withdrawPollList := by
  unfold Ev.withdrawPollList
  split
  · exact h
  · exact h.modPoll _

theorem serveSurvey (h : Settles a b) : Settles a b.serveSurvey := by
  unfold Ev.serveSurvey
  split
  · exact h
  · split
    · rename_i hc
      exact (h.send _ _ hc.2.2).setSurvey false
    · exact h

theorem serveWaitingList (h : Settles a b) : Settles a b.serveWaitingList := by
  unfold Ev.serveWaitingList
  split
  · split
    · rename_i hc
      exact (h.queuePollList _ _ _ hc.2).modPoll _
    · exact h
  · exact h

theorem serveChannels (h : Settles a b) : Settles a b.serveChannels :=
  crewArbiter _ (telemetryArbiter _ h.serveSurvey.serveWaitingList)

/-! ## The planning engine -/

theorem adjustHolds (h : Settles a b) (n : Nat) (o w : List ValveId) : Settles a (b.adjustHolds n o w) := by
  unfold Ev.adjustHolds
  exact foldl _ (fun v _ he => he.addHold n v) _ (foldl _ (fun v _ he => he.dropHold n v) _ h)

theorem claimLists (h : Settles a b) (n : Nat) (p : Plan) : Settles a (b.claimLists n p) :=
  foldl _ (fun v _ he => he.takeClaim n v) _ h

theorem commitPlan (h : Settles a b) (n : Nat) : Settles a (b.commitPlan n) := by
  unfold Ev.commitPlan
  split
  · exact h
  · rename_i p _
    have h2 := foldl (a := a) (fun acc v => acc.addHold n v) (fun v _ he => he.addHold n v) p.shared (h.claimLists n p)
    dsimp only
    have h3 : Settles a (if p.committed then p.shared.foldl (fun acc v => acc.addHold n v) (b.claimLists n p) else
        (((p.shared.foldl (fun acc v => acc.addHold n v) (b.claimLists n p)).modPlanner (fun pl => { pl with
          authCount := nextSkipZero (p.shared.foldl (fun acc v => acc.addHold n v) (b.claimLists n p)).planner.authCount
          })).modPlan n (fun q => { q with
            committed := true
            authSequence :=
              nextSkipZero (p.shared.foldl (fun acc v => acc.addHold n v) (b.claimLists n p)).planner.authCount
          })).triggerPass) := by
      split
      · exact h2
      · exact ((h2.modPlanner _).modPlan n _).triggerPass
    have h4 := (h3.modPlan n (fun q => { q with authCustomers := some q.customers })).setPlanState n .executing
    split
    · exact h4
    · split
      · exact h4.setIncidentState _ _
      · exact h4

theorem resultFresh (h : Settles a b) (n : Nat) (r : PlanResult) : Settles a (b.resultFresh n r) :=
  ((h.modPlan n _).setPlanState n _).planNotice n _

theorem resultInfeasible (h : Settles a b) (n : Nat) (r : InfeasibleReason) : Settles a (b.resultInfeasible n r) :=
  ((h.modPlan n _).setPlanState n _).planNotice n _

theorem resultReplanned (h : Settles a b) (p : Plan) (r : PlanResult) : Settles a (b.resultReplanned p r) := by
  unfold Ev.resultReplanned
  have h1 := ((h.modPlan p.number (fun q => q.takeLists r)).adjustHolds p.number p.shared r.shared).triggerPass
  refine planNotice ?_ _ _
  split <;> split
  · exact (h1.commitPlan _).modPlan _ _
  · exact (h1.setPlanState _ _).modPlan _ _
  · exact h1.commitPlan _
  · exact h1.setPlanState _ _

theorem resultStands (h : Settles a b) (p : Plan) (r : PlanResult) : Settles a (b.resultStands p r) := by
  have h1 := h.modPlan p.number (fun q => { q with widen := none })
  unfold Ev.resultStands
  dsimp only
  split
  · exact h1.resultFresh _ _
  · split
    · exact h1.resultInfeasible _ _
    · split
      · exact h1.resultInfeasible _ _
      · exact h1.resultReplanned _ _

theorem setEngine (h : Settles a b) (g : PlanEngine) : Settles a (b.setEngine g) := (h.modPlanner _).setWake

theorem modWaiting (h : Settles a b) (w : Option (List ValveId)) :
    Settles a (b.modTracer (fun t => { t with waiting := w })) := h.tail (.tracer b _ (fun _ => ⟨rfl, rfl⟩))

theorem startRun (h : Settles a b) (n k : Nat) : Settles a (b.startRun n k) := by
  unfold Ev.startRun
  split
  · exact h.setEngine _
  · rename_i p _
    have h1 := h.modPlan n (fun q => { q with target := b.targetOf p, rerun := false })
    dsimp only
    generalize b.modPlan n (fun q => { q with target := b.targetOf p, rerun := false }) = c at h1 ⊢
    split
    · exact (h1.setEngine _).modWaiting _
    · exact (h1.setEngine _).resultStands _ _

theorem feedEngine (k : Nat) : ∀ {b : Ev}, Settles a b → Settles a (Ev.feedEngine k b) := by
  induction k with
  | zero => exact fun h => h
  | succ k ih =>
    intro b h
    unfold Ev.feedEngine
    split
    · exact ih ((h.modPlanner _).startRun _ _)
    · exact h

theorem endRun (h : Settles a b) (r : Run) (s : Snapshot) : Settles a (b.endRun r s) := by
  unfold Ev.endRun
  split
  · exact h.setEngine _
  · split
    · exact h.startRun _ _
    · split
      · exact h.startRun _ _
      · exact (h.setEngine _).resultStands _ _

theorem deliverResult (h : Settles a b) (s : Snapshot) : Settles a (b.deliverResult s) := by
  unfold Ev.deliverResult
  split
  · exact h.endRun _ _
  · exact h.setEngine _
  · exact h

/-! ## The end of an event -/

theorem settleSwitching (h : Settles a b) : Settles a b.settleSwitching := by
  unfold Ev.settleSwitching
  split
  · exact ((serveOrders 64 h.restoreAll.announceIncomplete).awaitAll).serveChannels
  · exact h

theorem settlePlanner (h : Settles a b) : Settles a b.settlePlanner := by
  unfold Ev.settlePlanner
  split
  · exact feedEngine _ h
  · exact h

theorem settleTiers (h : Settles a b) : Settles a b.settleTiers := by
  unfold Ev.settleTiers
  split
  · exact h.modPoll _
  · exact h

theorem startPublished (h : Settles a b) : Settles a b.startPublished := h.tail (.tracer b _ (fun _ => ⟨rfl, rfl⟩))
theorem startHypothetical (h : Settles a b) (ov : List ValveId) : Settles a (b.startHypothetical ov) :=
  h.tail (.tracer b _ (fun _ => ⟨rfl, rfl⟩))

theorem nextWork (h : Settles a b) : Settles a b.nextWork := by
  unfold Ev.nextWork
  split
  · exact h.startPublished
  · exact h.startHypothetical _
  · split
    · exact h.startPublished
    · exact h.startHypothetical _
  · exact h.tail (.tracer b _ (fun _ => ⟨rfl, rfl⟩))

theorem settleTracer (h : Settles a b) : Settles a b.settleTracer := by
  unfold Ev.settleTracer
  split
  · rename_i kind _
    exact (h.tail (.tracer b (fun t => { t with lastKind := kind, rerun := t.rerun || b.trigger })
      (fun _ => ⟨rfl, rfl⟩))).nextWork
  · split
    · split
      · exact h.startPublished
      · split
        · exact h.startHypothetical _
        · exact h
    · split
      · exact h.tail (.tracer b _ (fun _ => ⟨rfl, rfl⟩))
      · exact h

theorem sendIncidentNotices (h : Settles a b) : Settles a b.sendIncidentNotices := by
  unfold Ev.sendIncidentNotices
  refine foldl _ (fun n e he => ?_) _ h
  split
  · exact he
  · exact he.notifyAll _ _

theorem incidentNoticesNow (h : Settles a b) : Settles a b.incidentNoticesNow :=
  h.sendIncidentNotices.tail (.marks rfl rfl rfl)

theorem sendAlarmNotices (h : Settles a b) : Settles a b.sendAlarmNotices := by
  unfold Ev.sendAlarmNotices
  refine foldl _ (fun n e he => ?_) _ h
  split
  · exact he
  · exact foldl _ (fun p _ hp => hp.sendAlarm _ p) _ he

theorem serveResyncs (h : Settles a b) : Settles a b.serveResyncs := by
  unfold Ev.serveResyncs
  split
  · refine foldl _ (fun p e he => ?_) _ h
    split
    · exact he.resync p
    · exact he
  · exact h

/-- The end of an event is made of primitive changes. -/
theorem finish (e : Ev) : ∃ e', Settles e e' ∧ e.finish = e'.toState :=
  ⟨_, ((((((Settles.refl e).settleSwitching.settlePlanner).settleTiers).settleTracer).sendIncidentNotices).sendAlarmNotices).serveResyncs,
    rfl⟩

end Settles

end Sys2Proof.Machine
end

