-- ==== Sys2Proof/Laws/Acts.lean ====
section
/-! SUPPORT. What the blocks of the commands can do, said once. `Acts e e'` adds to the changes of `Settles` those a block
makes: to valves, stations, feeds, calls, outages, alarms, the tracer and the ports. None of them touches the table, the
copy and the marks of the store, the mode, the published states, the subscriptions, the frame counter or the time.
`Answers q e e'`: such changes with exactly one reply to `q` among them. The commands that do touch those are the six table
writes, STORE, STORE_END, START, LOCK, SUBSCRIBE, PUBLICATION, FRAME_START and DEVICE_RESET. -/

namespace Sys2Proof.Machine

/-- One primitive change a block makes. -/
inductive Act1 : Ev → Ev → Prop
  /-- One that the end of an event makes too. -/
  | settle {a b : Ev} (h : Settle1 a b) : Act1 a b
  /-- The tracer has completed a pass. -/
  | completed (e : Ev) (k : PassKind) : Act1 e { e with completed := some k }
  /-- A valve's live state. -/
  | valve (e : Ev) (v : ValveId) (f : ValveLive → ValveLive) : Act1 e (e.modValve v f)
  /-- A station's live state. -/
  | station (e : Ev) (i : StationId) (f : StationLive → StationLive) : Act1 e (e.modStation i f)
  /-- A feed state. -/
  | feed (e : Ev) (i : FeedId) (st : FeedState) : Act1 e { e with feedState := upd e.feedState i (fun _ => st) }
  /-- The Call Register. -/
  | calls (e : Ev) (f : CallRegister → CallRegister) : Act1 e (e.modCalls f)
  /-- The Outage Register. -/
  | outages (e : Ev) (f : OutageRegister → OutageRegister) : Act1 e (e.modOutages f)
  /-- The tracer. -/
  | tracer (e : Ev) (f : Tracer → Tracer) : Act1 e (e.modTracer f)
  /-- An alarm withdrawn (R161). -/
  | withdrawAlarm (e : Ev) (k : AlarmKind) (obj : Nat) : Act1 e (e.withdrawAlarm k obj)
  /-- A general alarm acknowledged (R160). -/
  | ackGeneral (e : Ev) (o : AlarmRec) : Act1 e (e.ackGeneral o)
  /-- The OVERFLOW record acknowledged (R160). -/
  | ackOverflow (e : Ev) (o : AlarmRec) : Act1 e (e.ackOverflow o)
  /-- The silenced mark set (R168). -/
  | silence (e : Ev) : Act1 e (e.modAlarms (fun a => { a with silenced := true }))
  /-- A port whose queue does not grow and whose role, rate and held entries stay. -/
  | port (e : Ev) (p : Port) (f : LinkPort → LinkPort)
      (hq : (f e.ports[p]).queue.length ≤ e.ports[p].queue.length) (hh : (f e.ports[p]).held = e.ports[p].held)
      (hr : (f e.ports[p]).role = e.ports[p].role) (ha : (f e.ports[p]).rate = e.ports[p].rate) : Act1 e (e.modPort p f)
  /-- A port reset (R177). -/
  | portReset (e : Ev) (p : Port) : Act1 e (e.portReset p)

/-- Primitive changes one after another. -/
inductive Acts : Ev → Ev → Prop
  | refl (e : Ev) : Acts e e
  | tail {a b c : Ev} : Acts a b → Act1 b c → Acts a c

/-- Changes with exactly one reply to a request among them. -/
def Answers (q : Sender) (a c : Ev) : Prop := ∃ b code result, Acts a b ∧ Acts (b.reply q code result) c

namespace Acts

variable {a b : Ev}

theorem trans {c : Ev} (h : Acts a b) (k : Acts b c) : Acts a c := by
  induction k with
  | refl => exact h
  | tail _ s ih => exact ih.tail s

/-- A property every primitive change keeps is kept. -/
theorem keeps {P : Ev → Prop} (hP : ∀ x y, Act1 x y → P x → P y) (h : Acts a b) (ha : P a) : P b := by
  induction h with
  | refl => exact ha
  | tail _ s ih => exact hP _ _ s ih

theorem foldl {α : Type} (f : Ev → α → Ev) (hf : ∀ x e, Acts a e → Acts a (f e x)) (xs : List α) :
    ∀ {e : Ev}, Acts a e → Acts a (xs.foldl f e) := by
  induction xs with
  | nil => exact fun h => h
  | cons x xs ih => exact fun h => ih (hf x _ h)

theorem ofSettles (h : Settles a b) : Acts a b := by
  induction h with
  | refl => exact .refl _
  | tail _ s ih => exact ih.tail (.settle s)

/-- What settles from `b` may follow. -/
theorem settles {c : Ev} (h : Acts a b) (k : Settles b c) : Acts a c := h.trans (ofSettles k)

/-! ## The shared operations -/

theorem marks {c : Ev} (h : Acts a b) (hs : c.toState = b.toState) (hb : c.bumped = b.bumped)
    (hc : c.completed = b.completed) : Acts a c := h.tail (.settle (.marks hs hb hc))
theorem triggerPass (h : Acts a b) : Acts a b.triggerPass := h.settles (.triggerPass (.refl b))
theorem markTiers (h : Acts a b) : Acts a b.markTiers := h.settles (.markTiers (.refl b))
theorem markSettle (h : Acts a b) : Acts a b.markSettle := h.settles (.markSettle (.refl b))
theorem bump (h : Acts a b) : Acts a b.bump := h.settles (.bump (.refl b))
theorem raise (h : Acts a b) (k : AlarmKind) (o pr : Nat) (pl : Byte) : Acts a (b.raise k o pr pl) :=
  h.settles (.raise (.refl b) k o pr pl)
theorem clear (h : Acts a b) (k : AlarmKind) (o : Nat) : Acts a (b.clear k o) := h.settles (.clear (.refl b) k o)
theorem raiseOnly (h : Acts a b) (k : AlarmKind) (o pr : Nat) (pl : Byte) : Acts a (b.raiseOnly k o pr pl) :=
  (h.raise k o pr pl).clear k o
theorem modPlanner (h : Acts a b) (f : Planner → Planner) : Acts a (b.modPlanner f) :=
  h.settles (.modPlanner (.refl b) f)
theorem modPlan (h : Acts a b) (n : Nat) (f : Plan → Plan) : Acts a (b.modPlan n f) := h.modPlanner _
theorem modIncident (h : Acts a b) (n : Nat) (f : Incident → Incident) : Acts a (b.modIncident n f) :=
  h.settles (.modIncident (.refl b) n f)
theorem logIncident (h : Acts a b) (n : Nat) (c : IncidentCause) : Acts a (b.logIncident n c) :=
  h.settles (.logIncident (.refl b) n c)
theorem modCalls (h : Acts a b) (f : CallRegister → CallRegister) : Acts a (b.modCalls f) := h.tail (.calls b f)
theorem modOutages (h : Acts a b) (f : OutageRegister → OutageRegister) : Acts a (b.modOutages f) :=
  h.tail (.outages b f)
theorem modTracer (h : Acts a b) (f : Tracer → Tracer) : Acts a (b.modTracer f) := h.tail (.tracer b f)
theorem modValve (h : Acts a b) (v : ValveId) (f : ValveLive → ValveLive) : Acts a (b.modValve v f) :=
  h.tail (.valve b v f)
theorem modStation (h : Acts a b) (i : StationId) (f : StationLive → StationLive) : Acts a (b.modStation i f) :=
  h.tail (.station b i f)
theorem modPoll (h : Acts a b) (f : Poll → Poll) : Acts a (b.modPoll f) := h.settles (.modPoll (.refl b) f)
theorem notifyAll (h : Acts a b) (t : LinkPort → Bool) (body : List Byte) : Acts a (b.notifyAll t body) :=
  h.settles (.notifyAll (.refl b) t body)
theorem resync (h : Acts a b) (p : Port) : Acts a (b.resync p) := h.settles (.resync (.refl b) p)
theorem planNotice (h : Acts a b) (n : Nat) (c : PlanCause) : Acts a (b.planNotice n c) :=
  h.settles (.planNotice (.refl b) n c)
theorem setPlanState (h : Acts a b) (n : Nat) (st : PlanState) : Acts a (b.setPlanState n st) :=
  h.settles (.setPlanState (.refl b) n st)
theorem clearAuthorisations (h : Acts a b) (n : Nat) : Acts a (b.clearAuthorisations n) := h.modPlan n _
theorem replanTrigger (h : Acts a b) (n : Nat) : Acts a (b.replanTrigger n) := h.settles (.replanTrigger (.refl b) n)
theorem targetChange (h : Acts a b) (n : Nat) : Acts a (b.targetChange n) := h.settles (.targetChange (.refl b) n)
theorem setIncidentState (h : Acts a b) (n : Nat) (st : IncidentState) : Acts a (b.setIncidentState n st) :=
  h.settles (.setIncidentState (.refl b) n st)
theorem setProgress (h : Acts a b) (n : Nat) (v : ValveId) (p : Progress) : Acts a (b.setProgress n v p) :=
  h.settles (.setProgress (.refl b) n v p)
theorem withdrawPollList (h : Acts a b) : Acts a b.withdrawPollList := h.settles (.withdrawPollList (.refl b))
theorem withdraw (h : Acts a b) (t : Order → Bool) : Acts a (b.modOrders t (fun _ => none)) :=
  h.settles (.withdraw (.refl b) t)
theorem enterReplanning (h : Acts a b) (n : Nat) : Acts a (b.enterReplanning n) :=
  h.settles (.enterReplanning (.refl b) n)
theorem backToComputing (h : Acts a b) (n : Nat) : Acts a (b.backToComputing n) :=
  h.settles (.backToComputing (.refl b) n)

/-! ## Valves and orders -/

theorem writePosition (h : Acts a b) (v : ValveId) (pos : Position) : Acts a (b.writePosition v pos) := by
  unfold Ev.writePosition
  split
  · exact h
  · have h1 := (((h.modValve v (fun l => { l with position := pos, lastChange := b.now })).bump).triggerPass).markSettle
    dsimp only
    split
    · exact h1.clear _ _
    · exact h1

theorem setFault (h : Acts a b) (v : ValveId) (f : ValveFault) : Acts a (b.setFault v f) := by
  unfold Ev.setFault
  split
  · exact h
  · have h1 := ((h.modValve v (fun l => { l with fault := f, lastChange := b.now })).bump).markSettle
    unfold Ev.faultAlarm
    split
    · exact h1.clear _ _
    · exact h1.raise _ _ _ _

theorem markIncomplete (h : Acts a b) (n : Nat) (v : ValveId) : Acts a (b.markIncomplete n v) :=
  h.settles (.markIncomplete (.refl b) n v)

theorem handFailure (h : Acts a b) (o : Order) : Acts a (b.handFailure o) := by
  unfold Ev.handFailure
  split
  · exact h.replanTrigger _
  · exact h.markIncomplete _ _

theorem finaliseOrder (h : Acts a b) (o : Order) (st : OrderState) (hst : st.nonFinal = false) :
    Acts a (b.finaliseOrder o st) := h.settles (.finaliseOrder (.refl b) o st hst)

theorem failQueued (h : Acts a b) (v : ValveId) : Acts a (b.failQueued v) := by
  unfold Ev.failQueued
  split
  · exact h
  · exact (h.finaliseOrder _ _ rfl).handFailure _

theorem writeFault (h : Acts a b) (v : ValveId) (f : ValveFault) : Acts a (b.writeFault v f) := by
  unfold Ev.writeFault
  split
  · exact h
  · split
    · exact h.setFault _ _
    · exact (h.setFault _ _).failQueued _

theorem failOrder (h : Acts a b) (o : Order) (st : OrderState) (f : ValveFault) (pos : Option Position)
    (hst : st.nonFinal = false) : Acts a (b.failOrder o st f pos) := by
  unfold Ev.failOrder
  have h1 := h.finaliseOrder o st hst
  cases pos with
  | none => exact (h1.setFault _ _).handFailure _
  | some p => exact ((h1.writePosition _ p).setFault _ _).handFailure _

theorem enterDone (h : Acts a b) (n : Nat) (v : ValveId) : Acts a (b.enterDone n v) := by
  unfold Ev.enterDone
  split
  · exact h
  · split
    · exact h
    · exact ((h.modPlan _ _).markSettle).planNotice _ _

theorem completeOrder (h : Acts a b) (o : Order) (pos : Position) : Acts a (b.completeOrder o pos) := by
  unfold Ev.completeOrder
  have h1 := (h.finaliseOrder o .done rfl).writePosition o.valve pos
  dsimp only
  split
  · split
    · exact h1
    · exact h1.enterDone _ _
  · exact h1.setProgress _ _ _

theorem doneOrder (h : Acts a b) (o : Order) (pos : Position) : Acts a (b.doneOrder o pos) := by
  unfold Ev.doneOrder
  split
  · exact h.completeOrder _ _
  · exact h.failOrder _ _ _ _ rfl

theorem acceptOrder (h : Acts a b) (o : Order) : Acts a (b.acceptOrder o) := by
  unfold Ev.acceptOrder
  split
  · refine h.tail (.settle (.orders b _ _ (fun x y hx hy => ?_)))
    simp only [Bool.and_eq_true, beq_iff_eq] at hx
    simp only [Option.some.injEq] at hy
    subst hy
    exact ⟨rfl, fun _ => by simp [hx.2, OrderState.nonFinal]⟩
  · exact h

theorem queueReclose (h : Acts a b) (p : Plan) (v : ValveId) : Acts a (b.queueReclose p v) := by
  unfold Ev.queueReclose
  split
  · exact h
  · split
    · rename_i hr
      exact h.tail (.settle (.queueOrder b _ _ hr))
    · exact (h.modPlan _ _).markSettle

theorem reclose (h : Acts a b) (p : Plan) (v : ValveId) : Acts a (b.reclose p v) :=
  ((((h.modValve v _).modPlan p.number _).setPlanState p.number _).queueReclose p v).planNotice p.number _

theorem heldWatch (h : Acts a b) (p : Plan) (v : ValveId) (m : Bool) : Acts a (b.heldWatch p v m) := by
  unfold Ev.heldWatch
  have h1 := h.raise .valveHeldMoved v.val 1 (valvePlace b.table v)
  dsimp only
  split
  · split
    · exact (h1.writeFault _ _).replanTrigger _
    · exact h1.replanTrigger _
  · split
    · exact h1.reclose _ _
    · exact h1

theorem localControl (h : Acts a b) (v : ValveId) (m : Bool) : Acts a (b.localControl v m) := by
  unfold Ev.localControl
  split
  · exact h.writeFault _ _
  · exact h

theorem withdrawOf (h : Acts a b) (v : ValveId) (o : OrderAction) : Acts a (b.withdrawOf v o) := h.withdraw _

theorem withdrawClosed (h : Acts a b) (v : ValveId) (pos : Position) : Acts a (b.withdrawClosed v pos) := by
  unfold Ev.withdrawClosed
  split
  · exact h.withdrawOf _ _
  · exact h

theorem restoringReport (h : Acts a b) (p : Plan) (v : ValveId) (pos : Position) :
    Acts a (b.restoringReport p v pos) := by
  unfold Ev.restoringReport
  split
  · exact (h.withdrawOf _ _).setProgress _ _ _
  · exact h

theorem noteFeed (h : Acts a b) : Acts a b.noteFeed := h.modOutages _
theorem noteMovement (h : Acts a b) : Acts a b.noteMovement := h.modOutages _
theorem unplannedMove (h : Acts a b) (v : ValveId) : Acts a (b.unplannedMove v) := (h.raiseOnly _ _ _ _).noteMovement

theorem takeReport (h : Acts a b) (v : ValveId) (pos : Position) (m : Bool) : Acts a (b.takeReport v pos m) := by
  unfold Ev.takeReport
  have h1 := h.writePosition v pos
  dsimp only
  split
  · exact h1
  · exact (h1.localControl _ _).restoringReport _ _ _
  · exact (h1.heldWatch _ _ _).localControl _ _
  · exact ((h1.enterDone _ _).localControl _ _).withdrawOf _ _
  · exact (h1.unplannedMove _).localControl _ _
  · exact (h1.localControl _ _).withdrawClosed _ _

theorem lateReport (h : Acts a b) (v : ValveId) (pos : Position) : Acts a (b.lateReport v pos) := by
  unfold Ev.lateReport
  have h1 := h.writePosition v pos
  dsimp only
  split
  · exact h1.heldWatch _ _ _
  · exact h1.unplannedMove _
  all_goals exact h1

/-! ## Ports -/

theorem portReset (h : Acts a b) (p : Port) : Acts a (b.portReset p) := h.tail (.portReset b p)

theorem armLiveness (h : Acts a b) (p : Port) : Acts a (b.armLiveness p) :=
  h.tail (.port b p _ (Nat.le_refl _) rfl rfl rfl)

theorem portAlarms (h : Acts a b) (p : Port) (o n : PortState) : Acts a (b.portAlarms p o n) := by
  unfold Ev.portAlarms
  split
  · exact h.raise _ _ _ _
  · exact (h.clear _ _).raise _ _ _ _
  · exact h.clear _ _
  · exact h.clear _ _
  · exact h

theorem failSent (h : Acts a b) : Acts a b.failSent := foldl _ (fun _ _ he => he.failOrder _ _ _ _ rfl) _ h
theorem setHolder (h : Acts a b) (n : Nat) (o : Option Port) (f : Bool) : Acts a (b.setHolder n o f) :=
  (h.modPlan n _).markSettle

theorem handOver (h : Acts a b) (p : Port) : Acts a (b.handOver p) := by
  unfold Ev.handOver
  refine foldl _ (fun n e he => ?_) _ h
  split
  · exact (he.setHolder _ _ _).planNotice _ _
  · exact (he.setHolder _ _ _).planNotice _ _

theorem adopt (h : Acts a b) (p : Port) : Acts a (b.adopt p) :=
  foldl _ (fun _ _ he => (he.setHolder _ _ _).planNotice _ _) _ h

theorem telemetryChange (h : Acts a b) (o n : PortState) : Acts a (b.telemetryChange o n) := by
  unfold Ev.telemetryChange
  split
  · exact (h.settles (.setSurvey (.refl b) true)).markSettle
  · exact (h.settles (.setSurvey (.refl b) true)).markSettle
  · exact h.markSettle
  · exact h.failSent.withdrawPollList
  · exact h.withdrawPollList

theorem consoleChange (h : Acts a b) (p : Port) (o n : PortState) : Acts a (b.consoleChange p o n) := by
  unfold Ev.consoleChange
  split
  · exact h.adopt _
  · exact h.handOver _
  · exact h

theorem deliverPortState (h : Acts a b) (p : Port) (o n : PortState) : Acts a (b.deliverPortState p o n) := by
  unfold Ev.deliverPortState
  split
  · split
    · exact h.telemetryChange _ _
    · exact h
  · exact h.consoleChange _ _ _
  · split
    · exact h.markSettle
    · exact h
  · exact h

theorem portChanged (h : Acts a b) (p : Port) (o n : PortState) (r : Bool) : Acts a (b.portChanged p o n r) := by
  unfold Ev.portChanged
  have h1 := h.portAlarms p o n
  refine deliverPortState ?_ _ _ _
  refine notifyAll ?_ _ _
  split
  · exact h1.resync _
  · exact h1

theorem frameSeen (e : Ev) (p : Port) : Acts e (e.frameSeen p) := by
  unfold Ev.frameSeen
  have h1 := ((Acts.refl e).tail (.port e p
    (fun l => { l with validCount := satInc 65535 l.validCount, state := .up }) (Nat.le_refl _) rfl rfl rfl)).armLiveness p
  dsimp only
  split
  · exact h1
  · exact (h1.portReset p).portChanged _ _ _ _
  · exact h1.portChanged _ _ _ _

theorem livenessExpired (h : Acts a b) (p : Port) : Acts a (b.livenessExpired p) := by
  unfold Ev.livenessExpired
  split
  · exact ((h.tail (.port b p _ (Nat.le_refl _) rfl rfl rfl)).armLiveness p).portChanged _ _ _ _
  · exact (h.tail (.port b p _ (Nat.le_refl _) rfl rfl rfl)).portChanged _ _ _ _
  · exact h

/-! ## Feeds and stations -/

theorem setFeed (h : Acts a b) (f : FeedId) (st : FeedState) : Acts a (b.setFeed f st) := by
  unfold Ev.setFeed
  split
  · exact h
  · rename_i ne
    have h1 : Acts a (b.moveFeed f st) := by
      unfold Ev.moveFeed
      rw [if_neg ne]
      exact ((h.tail (.feed b f st)).bump).triggerPass
    unfold Ev.feedEffects
    split
    · exact (h1.raise _ _ _ _).noteFeed
    · exact h1.clear _ _
    · exact h1

theorem doubtFeed (h : Acts a b) (l : Side) : Acts a (b.doubtFeed l) := by
  unfold Ev.doubtFeed
  split
  · exact h
  · exact h.setFeed _ _

theorem armStaleness (h : Acts a b) (i : StationId) : Acts a (b.armStaleness i) := h.modStation _ _

theorem openIncident (h : Acts a b) (o : Origin) (s : SegId) (t : Stamp) : Acts a (b.openIncident o s t) :=
  ((h.modCalls _).logIncident _ _).markTiers

theorem clearTableFull (h : Acts a b) : Acts a b.clearTableFull := by
  unfold Ev.clearTableFull
  split
  · exact h
  · exact h.clear _ _

theorem pressureFall (h : Acts a b) (s : SegId) (t : Stamp) : Acts a (b.pressureFall s t) := by
  unfold Ev.pressureFall
  split
  · exact h.openIncident _ _ _
  · exact (h.raise _ _ _ _).clearTableFull

theorem bandEffects (h : Acts a b) (i : StationId) (o n : StationLive) : Acts a (b.bandEffects i o n) := by
  unfold Ev.bandEffects
  split
  · split
    · have h1 := h.modStation i (fun l => { l with suppressed := false })
      dsimp only
      split
      · exact h1
      · exact h1.raise _ _ _ _
    · exact h
  · split
    · exact h
    · split
      · exact h.clear _ _
      · split
        · exact h.raise _ _ _ _
        · exact h

theorem handFall (h : Acts a b) (l : Side) : Acts a (b.handFall l) := by
  unfold Ev.handFall
  split
  · exact h
  · split
    · exact h.pressureFall _ _
    · exact h

theorem fallEffects (h : Acts a b) (i : StationId) (o n : Nat) : Acts a (b.fallEffects i o n) := by
  unfold Ev.fallEffects
  dsimp only
  split
  · exact h.clear _ _
  · split
    · refine handFall ?_ _
      split
      · exact h.raise _ _ _ _
      · exact h
    · exact h

theorem evalFeed (h : Acts a b) (l : Side) (f : Nat) : Acts a (b.evalFeed l f) := by
  unfold Ev.evalFeed
  split
  · exact h
  · split
    · exact h.setFeed _ _
    · exact h

theorem clearNoData (h : Acts a b) (i : StationId) (q : Quality) : Acts a (b.clearNoData i q) := by
  unfold Ev.clearNoData
  split
  · exact h.clear _ _
  · exact h

theorem toProven (h : Acts a b) (n : Nat) : Acts a (b.toProven n) := ((h.modPlan n _).setPlanState n _).planNotice n _
theorem toUnproven (h : Acts a b) (n : Nat) : Acts a (b.toUnproven n) :=
  ((h.modPlan n _).setPlanState n _).planNotice n _
theorem toProving (h : Acts a b) (n : Nat) : Acts a (b.toProving n) := ((h.modPlan n _).setPlanState n _).planNotice n _

theorem proveReading (h : Acts a b) (i : StationId) : Acts a (b.proveReading i) := by
  unfold Ev.proveReading
  refine foldl _ (fun n e he => ?_) _ h
  unfold Ev.testProof
  split
  · exact he
  · split
    · exact he.toProven _
    · exact he

theorem proveQuality (h : Acts a b) (i : StationId) : Acts a (b.proveQuality i) := by
  unfold Ev.proveQuality
  refine foldl _ (fun n e he => ?_) _ h
  unfold Ev.testCounting
  split
  · exact he
  · split
    · exact he.toUnproven _
    · exact he

theorem goodReading (h : Acts a b) (i : StationId) (raw : Nat) : Acts a (b.goodReading i raw) := by
  unfold Ev.goodReading
  have h1 := ((h.clearNoData i b.stationLive[i].quality).modStation i
    (fun _ => b.stationLive[i].measure b.table.stations[i] raw b.now b.events)).armStaleness i
  refine proveReading (evalFeed ?_ _ _) _
  split
  · exact (h1.fallEffects _ _ _).bandEffects _ _ _
  · exact (h1.bandEffects _ _ _).fallEffects _ _ _

theorem loseData (h : Acts a b) (i : StationId) (q : Quality) : Acts a (b.loseData i q) :=
  (((h.modStation i _).raise _ _ _ _).doubtFeed _).proveQuality _

theorem failedReading (h : Acts a b) (i : StationId) : Acts a (b.failedReading i) := by
  unfold Ev.failedReading
  split
  · exact h
  · exact h.loseData _ _

/-! ## Calls -/

theorem setGrade (h : Acts a b) (n : Nat) : Acts a (b.setGrade n) := by
  unfold Ev.setGrade
  split
  · exact h
  · dsimp only
    split
    · exact h
    · exact ((h.modIncident _ _).logIncident _ _).markTiers

theorem setGrades (h : Acts a b) : Acts a b.setGrades := foldl _ (fun n _ he => he.setGrade n) _ h

theorem deliverTargets (h : Acts a b) : Acts a b.deliverTargets := by
  unfold Ev.deliverTargets
  refine foldl _ (fun c e he => ?_) _ h
  unfold Ev.handTarget
  split
  · exact he.targetChange _
  · exact he

theorem groupCall (h : Acts a b) (r : Word) (s : SegId) : Acts a (b.groupCall r s) := by
  unfold Ev.groupCall
  split
  · exact (h.modCalls _).logIncident _ _
  · split
    · exact ((((h.modCalls _).modIncident _ _).logIncident _ _).markTiers).logIncident _ _
    · split
      · exact (h.openIncident _ _ _).modCalls _
      · exact h

theorem clearEscalated (h : Acts a b) (z : Byte) : Acts a (b.clearEscalated z) := by
  unfold Ev.clearEscalated
  split
  · exact h
  · exact h.clear _ _

theorem testEscalation (h : Acts a b) (z : Byte) : Acts a (b.testEscalation z) := by
  unfold Ev.testEscalation
  split
  · refine clearEscalated (raise ?_ _ _ _ _) _
    exact foldl _ (fun n _ he => ((he.modIncident _ _).logIncident _ _).markTiers) _ h
  · exact h

theorem raiseUngrouped (h : Acts a b) (r : Word) : Acts a (b.raiseUngrouped r) := by
  unfold Ev.raiseUngrouped
  split
  · exact h
  · exact h.raise _ _ _ _

theorem updateCall (h : Acts a b) (x : Call) (st : CallState) : Acts a (b.updateCall x st) := by
  unfold Ev.updateCall
  split
  · exact h
  · split
    · exact (h.modCalls _).clearTableFull
    · exact h.modCalls _
    · exact (h.modCalls _).logIncident _ _

theorem closeIncident (h : Acts a b) (i : Incident) : Acts a (b.closeIncident i) := by
  unfold Ev.closeIncident Ev.regroup
  have h1 := ((h.marks (c := { b with incidentLog := b.incidentLog ++ [⟨{ i with state := .closed }, .closed⟩] })
    rfl rfl rfl).modCalls (fun c => { c with
      calls := c.calls.filter (fun x => x.incident != some i.number)
      incidents := c.incidents.filter (fun x => x.number != i.number) })).markTiers
  exact (foldl _ (fun (x : Call) _ he => he.groupCall x.ref x.segment) _
    (h1.clearEscalated i.zone)).clearTableFull.setGrades.deliverTargets

/-! ## Publications -/

theorem takeDelivery (r : Reactor) (act : Publication → Ev → Ev)
    (hact : ∀ pub (e : Ev), Acts b e → Acts b (act pub e)) : Acts b (takeDelivery r act b) := by
  unfold Sys2Proof.Machine.takeDelivery
  split
  · split
    · exact hact _ _ ((Acts.refl b).modTracer _)
    · exact .refl b
  · exact .refl b

theorem judgeOutage (h : Acts a b) (i : OutageId) (x y : Option Outage) (o : Bool) : Acts a (b.judgeOutage i x y o) := by
  unfold Ev.judgeOutage
  have h0 : Acts a (if o && x.isSome then b.clear .largeOutage i.val else b) := by
    split
    · exact h.clear _ _
    · exact h
  dsimp only
  split
  · split
    · exact h0.clear _ _
    · exact h0
  · split
    · split
      · exact h0.raise _ _ _ _
      · exact h0
    · split
      · exact h0.raise _ _ _ _
      · split
        · exact h0.clear _ _
        · exact h0

theorem outageNotice (h : Acts a b) (i : OutageId) (x y : Option Outage) (c : List OutageNoticeCause) :
    Acts a (b.outageNotice i x y c) := by
  unfold Ev.outageNotice
  split
  · exact h.notifyAll _ _
  · exact h.notifyAll _ _
  · exact h

theorem putOutage (h : Acts a b) (i : OutageId) (x y : Outage) (c : List OutageNoticeCause) :
    Acts a (b.putOutage i x y c) := ((h.modOutages _).judgeOutage _ _ _ _).outageNotice _ _ _ _

theorem showAll (h : Acts a b) (before : Vector (Option Outage) 32) (w : OutageWork) : Acts a (b.showAll before w) := by
  unfold Ev.showAll
  refine foldl _ (fun i e he => ?_) _ h
  unfold Ev.showOutage
  dsimp only
  split
  · exact he
  · exact (he.judgeOutage _ _ _ _).outageNotice _ _ _ _

theorem provePublication (h : Acts a b) (g : Word) (n : Nat) : Acts a (b.provePublication g n) := by
  unfold Ev.provePublication
  split
  · exact h
  · split
    · unfold Ev.judge
      have h1 := h.modPlan
      dsimp only
      split
      · exact (h.modPlan _ _).replanTrigger _
      · split
        · exact (h.modPlan _ _).toUnproven _
        · exact (h.modPlan _ _).toProving _
    · split
      · exact h.replanTrigger _
      · exact h

end Acts

end Sys2Proof.Machine
end

