-- ==== Sys2Proof/Laws/Blocks.lean ====
section
/-! SUPPORT. What each command's block can do: the request blocks `Answers` their sender exactly once, and the blocks of
expiries and completions `Acts`. -/

namespace Sys2Proof.Machine

namespace Answers

variable {q : Sender} {a b : Ev}

theorem refuse (q : Sender) (e : Ev) (c : ReplyCode) : Answers q e (e.refuse q c) := ⟨e, c, [], .refl e, .refl _⟩
theorem reply (q : Sender) (e : Ev) (c : ReplyCode) (r : List Byte) : Answers q e (e.reply q c r) :=
  ⟨e, c, r, .refl e, .refl _⟩

/-- A reply, and then more. -/
theorem after {c : Ev} (h : Answers q a b) (k : Acts b c) : Answers q a c :=
  let ⟨x, code, r, h1, h2⟩ := h
  ⟨x, code, r, h1, h2.trans k⟩

/-- Changes, and then a reply. -/
theorem before (h : Acts a b) (q : Sender) (c : ReplyCode) (r : List Byte) : Answers q a (b.reply q c r) :=
  ⟨b, c, r, h, .refl _⟩

/-- The reply OK, and then more. -/
theorem okThen (q : Sender) (e : Ev) {c : Ev} (k : Acts (e.ok q) c) : Answers q e c := ⟨e, .ok, [], .refl e, k⟩

/-- A refusal, and then more. -/
theorem refuseThen (q : Sender) (e : Ev) (code : ReplyCode) {c : Ev} (k : Acts (e.refuse q code) c) : Answers q e c :=
  ⟨e, code, [], .refl e, k⟩

theorem inOperating (q : Sender) (act : Ev → Ev) (e : Ev) (h : Answers q e (act e)) :
    Answers q e (inOperating q act e) := by
  unfold Sys2Proof.Machine.inOperating
  split
  · exact refuse q e _
  · exact h

theorem onPlan (n : Half) (q : Sender) (act : Plan → Ev → Ev) (e : Ev) (h : ∀ p, Answers q e (act p e)) :
    Answers q e (onPlan n q act e) := by
  refine inOperating q _ e ?_
  split
  · exact refuse q e _
  · exact h _

end Answers

/-! ## Ports -/

theorem gapBlock_acts (p : Port) (e : Ev) : Acts e (gapBlock p e) := by
  unfold gapBlock
  split
  · exact (Acts.refl e).tail (.port e p _ (Nat.le_refl _) rfl rfl rfl)
  · exact .refl e

theorem livenessBlock_acts (p : Port) (e : Ev) : Acts e (livenessBlock p e) := by
  unfold livenessBlock
  split
  · exact (Acts.refl e).livenessExpired p
  · exact .refl e

theorem queueBlock_acts (p : Port) (e : Ev) : Acts e (queueBlock p e) := by
  unfold queueBlock
  split
  · exact .refl e
  · rename_i rest hq
    have h1 := (Acts.refl e).tail (.port e p (fun l => { l with queue := rest }) (by rw [hq]; simp) rfl rfl rfl)
    exact h1.markSettle.marks rfl rfl rfl

theorem linkResetBlock_answers (q : Sender) (e : Ev) : Answers q e (linkResetBlock q e) := by
  unfold linkResetBlock
  have h := Answers.before ((Acts.refl e).portReset q.port) q .ok []
  dsimp only
  split
  · exact h.after ((Acts.refl _).resync _)
  · exact h

/-! ## Stations -/

theorem readingBlock_answers (st : Byte) (raw : Half) (quality : Byte) (q : Sender) (e : Ev) :
    Answers q e (readingBlock st raw quality q e) := by
  unfold readingBlock
  split
  · exact .refuse q e _
  · split
    · exact .okThen q e ((Acts.refl _).goodReading _ _)
    · exact .okThen q e ((Acts.refl _).modStation _ _)
    · exact .okThen q e ((Acts.refl _).failedReading _)

theorem stalenessBlock_acts (i : StationId) (e : Ev) : Acts e (stalenessBlock i e) := by
  unfold stalenessBlock
  split
  · split
    · exact (Acts.refl e).loseData _ _
    · exact (Acts.refl e).loseData _ _
    · exact (Acts.refl e).modStation _ _
    · exact (Acts.refl e).modStation _ _
  · exact .refl e

theorem limitsWriteBlock_answers (st : Byte) (l : Limits) (q : Sender) (e : Ev) :
    Answers q e (limitsWriteBlock st l q e) := by
  unfold limitsWriteBlock
  split
  · exact .refuse q e _
  · split
    · exact .before ((Acts.refl e).modStation _ _) q _ _
    · exact .refuse q e _

theorem collectBlock_answers (st : Byte) (q : Sender) (e : Ev) : Answers q e (collectBlock st q e) := by
  unfold collectBlock
  split
  · exact .refuse q e _
  · exact .before ((Acts.refl e).modStation _ _) q _ _

theorem suppressionBlock_acts (e : Ev) : Acts e (suppressionBlock e) := by
  refine Acts.takeDelivery _ _ (fun _ x hx => ?_)
  refine Acts.foldl _ (fun i y hy => ?_) _ hx
  exact (hy.modStation _ _).tail (.withdrawAlarm _ _ _)

/-! ## Valves and orders -/

theorem reportBlock_answers (k : ValveKind) (v : Half) (pos fl : Byte) (q : Sender) (e : Ev) :
    Answers q e (reportBlock k v pos fl q e) := by
  unfold reportBlock
  split
  · exact .refuse q e _
  · split
    · exact .refuse q e _
    · split
      · exact .okThen q e ((Acts.refl _).takeReport _ _ _)
      · exact .refuse q e _

theorem acceptBlock_answers (tag : Byte) (v : Half) (q : Sender) (e : Ev) : Answers q e (acceptBlock tag v q e) := by
  unfold acceptBlock
  split
  · exact .refuse q e _
  · split
    · exact .okThen q e ((Acts.refl _).acceptOrder _)
    · exact .refuse q e _

theorem doneBlock_answers (pt : OrderPath) (tag : Byte) (v : Half) (pos : Byte) (q : Sender) (e : Ev) :
    Answers q e (doneBlock pt tag v pos q e) := by
  unfold doneBlock
  split
  · exact .refuse q e _
  · split
    · exact .refuse q e _
    · split
      · exact .okThen q e ((Acts.refl _).doneOrder _ _)
      · exact .refuseThen q e _ ((Acts.refl _).lateReport _ _)

theorem failBlock_answers (pt : OrderPath) (tag : Byte) (v : Half) (r : Byte) (q : Sender) (e : Ev) :
    Answers q e (failBlock pt tag v r q e) := by
  unfold failBlock
  split
  · exact .refuse q e _
  · split
    · exact .refuse q e _
    · split
      · exact .okThen q e ((Acts.refl _).failOrder _ _ _ _ rfl)
      · exact .refuse q e _

theorem acceptDeadlineBlock_acts (tag : Byte) (e : Ev) : Acts e (acceptDeadlineBlock tag e) := by
  unfold acceptDeadlineBlock
  split
  · exact .refl e
  · exact (Acts.refl e).failOrder _ _ _ _ rfl

theorem travelDeadlineBlock_acts (tag : Byte) (e : Ev) : Acts e (travelDeadlineBlock tag e) := by
  unfold travelDeadlineBlock
  split
  · exact .refl e
  · exact (Acts.refl e).failOrder _ _ _ _ rfl

theorem crewDeadlineBlock_acts (tag : Byte) (e : Ev) : Acts e (crewDeadlineBlock tag e) := by
  unfold crewDeadlineBlock
  split
  · exact .refl e
  · exact (Acts.refl e).failOrder _ _ _ _ rfl

theorem clearFaultBlock_answers (v : Half) (q : Sender) (e : Ev) : Answers q e (clearFaultBlock v q e) := by
  unfold clearFaultBlock
  split
  · exact .refuse q e _
  · exact .okThen q e ((Acts.refl _).setFault _ _)

/-! ## Calls and incidents -/

theorem callBlock_answers (r : Word) (s g pl : Byte) (q : Sender) (e : Ev) : Answers q e (callBlock r s g pl q e) := by
  refine .inOperating q _ e ?_
  split
  · exact .refuse q e _
  · split
    · exact .refuse q e _
    · split
      · exact .before (((((((((Acts.refl e).modCalls _).groupCall _ _).raiseUngrouped _).modCalls _).testEscalation
          _).setGrades).deliverTargets)) q _ _
      · exact .refuseThen q e _ ((Acts.refl _).raiseOnly _ _ _ _)
  · exact .refuse q e _

/-- The OK reply to a CALL: the reply R182 lays out, with the call reference after it (R76, step 6). -/
theorem replyBody_callReplyFields (seq kind : Byte) (ref : Word) (incident : Option Nat) :
    replyBody seq kind .ok (callReplyFields ref incident) =
      replyBody seq kind .ok (u8 (incident.getD 0)) ++ w32 ref :=
  (List.append_assoc _ _ _).symm

theorem callUpdateBlock_answers (r : Word) (st : Byte) (q : Sender) (e : Ev) :
    Answers q e (callUpdateBlock r st q e) := by
  refine .inOperating q _ e ?_
  split
  · exact .refuse q e _
  · split
    · exact .refuse q e _
    · split
      · exact .refuse q e _
      · exact .before ((Acts.refl e).updateCall _ _) q _ _

theorem madeSafeBlock_answers (i : Byte) (q : Sender) (e : Ev) : Answers q e (madeSafeBlock i q e) := by
  refine .inOperating q _ e ?_
  split
  · exact .refuse q e _
  · split
    · exact .before ((Acts.refl e).setIncidentState _ _) q _ _
    · exact .refuse q e _

theorem closeIncidentBlock_answers (i : Byte) (q : Sender) (e : Ev) : Answers q e (closeIncidentBlock i q e) := by
  refine .inOperating q _ e ?_
  split
  · exact .refuse q e _
  · split
    · exact .okThen q e ((Acts.refl _).closeIncident _)
    · exact .refuse q e _

/-! ## Plans -/

theorem createPlan_answers (q : Sender) (e : Ev) (i : Incident) : Answers q e (e.createPlan q i) := by
  unfold Ev.createPlan
  dsimp only
  exact (Answers.before (.ofSettles ((((Settles.refl e).modPlanner _).modIncident _ _).logIncident _ _
    |>.incidentNoticesNow.enqueuePlan _))
    q _ _).after ((Acts.refl _).planNotice _ _)

theorem planBlock_answers (i : Byte) (q : Sender) (e : Ev) : Answers q e (planBlock i q e) := by
  refine .inOperating q _ e ?_
  split
  · exact .refuse q e _
  · split
    · split
      · exact createPlan_answers q e _
      · exact .refuse q e _
    · exact .refuse q e _

theorem hypotheticalBlock_acts (e : Ev) : Acts e (hypotheticalBlock e) := by
  unfold hypotheticalBlock
  split
  · exact ((Acts.refl e).tail (.completed e _)).settles (.deliverResult (.refl _) _)
  · exact .refl e

theorem authoriseBlock_answers (n : Half) (st : Byte) (q : Sender) (e : Ev) : Answers q e (authoriseBlock n st q e) := by
  refine .onPlan n q _ e (fun p => ?_)
  split
  · exact .refuse q e _
  · split
    · exact .refuse q e _
    · split
      · exact .refuse q e _
      · split
        · unfold Ev.staleAuthorise
          dsimp only
          split
          · exact .refuseThen q e _ (((Acts.refl _).enterReplanning _).planNotice _ _)
          · exact .refuseThen q e _ ((Acts.refl _).backToComputing _)
        · split
          · exact (Answers.before (((Acts.refl e).modPlan p.number _).setPlanState p.number _) q .ok []).after
              ((Acts.refl _).planNotice _ _)
          · exact (Answers.before ((((Acts.refl e).setHolder p.number _ _).clearAuthorisations p.number).settles
              (.commitPlan (.refl _) _)) q .ok []).after ((Acts.refl _).planNotice _ _)

theorem windowBlock_acts (n : Nat) (e : Ev) : Acts e (windowBlock n e) := by
  unfold windowBlock
  split
  · exact .refl e
  · split
    · exact (((Acts.refl e).clearAuthorisations n).setPlanState n _).planNotice n _
    · exact .refl e

theorem cancelBlock_answers (n : Half) (q : Sender) (e : Ev) : Answers q e (cancelBlock n q e) := by
  refine .onPlan n q _ e (fun p => ?_)
  split
  · exact .refuse q e _
  · split
    · exact .okThen q e (.ofSettles (.enterRestoring (.refl _) p))
    · exact .okThen q e (.ofSettles ((((((Settles.refl _).leaveQueue p.number).modPlan p.number _).setPlanState p.number
        _).markIncidentPlan _ _ _).planNotice _ _ |>.freePlan _))

theorem widenBlock_answers (n : Half) (q : Sender) (e : Ev) : Answers q e (widenBlock n q e) := by
  refine .onPlan n q _ e (fun p => ?_)
  split
  · exact .okThen q e (((Acts.refl _).modPlan _ _).replanTrigger _)
  · exact .refuse q e _

theorem proofBlock_acts (n : Nat) (e : Ev) : Acts e (proofBlock n e) := by
  unfold proofBlock
  split
  · exact .refl e
  · split
    · exact (((Acts.refl e).modPlan n _).setPlanState n _).planNotice n _
    · exact .refl e

theorem confirmBlock_answers (n : Half) (q : Sender) (e : Ev) : Answers q e (confirmBlock n q e) := by
  refine .onPlan n q _ e (fun p => ?_)
  split
  · exact .okThen q e ((((Acts.refl _).setPlanState _ _).modPlan _ _).planNotice _ _)
  · exact .refuse q e _

theorem restoreBlock_answers (n : Half) (q : Sender) (e : Ev) : Answers q e (restoreBlock n q e) := by
  refine .onPlan n q _ e (fun p => ?_)
  split
  · exact .okThen q e (.ofSettles (.enterRestoring (.refl _) p))
  · exact .refuse q e _

theorem provingBlock_acts (e : Ev) : Acts e (provingBlock e) := by
  refine Acts.takeDelivery _ _ (fun _ x hx => ?_)
  exact Acts.foldl _ (fun n y hy => hy.provePublication _ n) _ hx

/-! ## Outages -/

theorem outagesBlock_acts (e : Ev) : Acts e (outagesBlock e) :=
  Acts.takeDelivery _ _ (fun _ _ hx => (hx.modOutages _).showAll _ _)

theorem relightBlock_answers (r s : Byte) (c : Half) (q : Sender) (e : Ev) : Answers q e (relightBlock r s c q e) := by
  refine .inOperating q _ e ?_
  split
  · exact .refuse q e _
  · split
    · exact .refuse q e _
    · split
      · exact .refuse q e _
      · split
        · exact .refuse q e _
        · exact (Answers.reply q e _ _).after ((Acts.refl _).putOutage _ _ _ _)

theorem closeOutageBlock_answers (r : Byte) (q : Sender) (e : Ev) : Answers q e (closeOutageBlock r q e) := by
  refine .inOperating q _ e ?_
  split
  · exact .refuse q e _
  · split
    · exact .okThen q e ((Acts.refl _).putOutage _ _ _ _)
    · exact .refuse q e _

/-! ## Alarms and reads -/

theorem ackBlock_answers (k : Byte) (o : Half) (q : Sender) (e : Ev) : Answers q e (ackBlock k o q e) := by
  unfold ackBlock
  split
  · exact .refuse q e _
  · split
    · exact .refuse q e _
    · unfold Ev.acknowledge
      split
      · exact .okThen q e ((Acts.refl _).tail (.ackOverflow _ _))
      · exact .okThen q e ((Acts.refl _).tail (.ackGeneral _ _))

theorem silenceBlock_answers (q : Sender) (e : Ev) : Answers q e (silenceBlock q e) :=
  .before ((Acts.refl e).tail (.silence e)) q _ _

theorem readSegmentBlock_answers (i : Byte) (q : Sender) (e : Ev) : Answers q e (readSegmentBlock i q e) :=
  .reply q e _ _

theorem readValveBlock_answers (v : Half) (q : Sender) (e : Ev) : Answers q e (readValveBlock v q e) := by
  unfold readValveBlock
  split
  · exact .refuse q e _
  · exact .reply q e _ _

theorem readStationBlock_answers (i : Byte) (q : Sender) (e : Ev) : Answers q e (readStationBlock i q e) := by
  unfold readStationBlock
  split
  · exact .refuse q e _
  · exact .reply q e _ _

theorem readPlanBlock_answers (n : Half) (l f : Byte) (q : Sender) (e : Ev) : Answers q e (readPlanBlock n l f q e) := by
  unfold readPlanBlock
  split
  · exact .refuse q e _
  · split
    · exact .refuse q e _
    · exact .reply q e _ _

theorem readIncidentBlock_answers (i f : Byte) (q : Sender) (e : Ev) : Answers q e (readIncidentBlock i f q e) := by
  unfold readIncidentBlock
  split
  · exact .reply q e _ _
  · split
    · exact .refuse q e _
    · exact .reply q e _ _

theorem readCallBlock_answers (r : Word) (q : Sender) (e : Ev) : Answers q e (readCallBlock r q e) := by
  unfold readCallBlock
  split
  · exact .refuse q e _
  · exact .reply q e _ _

theorem readOutageBlock_answers (r l f : Byte) (q : Sender) (e : Ev) : Answers q e (readOutageBlock r l f q e) := by
  unfold readOutageBlock
  split
  · exact .refuse q e _
  · exact .refuse q e _
  · split
    · exact .reply q e _ _
    · exact .reply q e _ _

theorem readAlarmsBlock_answers (f : Byte) (q : Sender) (e : Ev) : Answers q e (readAlarmsBlock f q e) := .reply q e _ _

theorem readPortBlock_answers (p : Byte) (q : Sender) (e : Ev) : Answers q e (readPortBlock p q e) := by
  unfold readPortBlock
  split
  · exact .refuse q e _
  · exact .reply q e _ _

/-! ## What two replies hold -/

/-- The SUMMARY of READ PLAN begins with the fields of R184, whatever it shows of order records. -/
theorem Ev.planSummary_fields (e : Ev) (p : Plan) : e.planRecordBytes p <+: e.planSummary p := ⟨_, rfl⟩

/-- Only final orders of the plan stand behind the free end of the SUMMARY (R111). -/
theorem Ev.mem_finalOrders {e : Ev} {n : Nat} {o : Order} (h : o ∈ e.finalOrders n) :
    o.plan = n ∧ o.state.nonFinal = false := by
  obtain ⟨r, -, hr⟩ := List.mem_filterMap.mp h
  simpa using (Option.filter_eq_some_iff.mp hr).2

/-- The list and withheld counts take five bytes for every port (R179). -/
@[simp] theorem Ev.pollCounts_length (e : Ev) (p : Port) : (e.pollCounts p).length = 5 := by
  unfold Ev.pollCounts
  split <;> rfl

/-- A valve given up goes to another plan of its shared holds (R142). -/
theorem Ev.receiver_spec {e : Ev} {n m : Nat} {v : ValveId} (h : e.receiver n v = some m) :
    m ≠ n ∧ m ∈ e.valveLive[v].holds := by
  simpa [and_comm] using List.mem_of_mem_head? (Option.mem_def.mpr h)

/-- With no other plan in the shared holds there is no receiver (R141, R144). -/
theorem Ev.receiver_eq_none {e : Ev} {n : Nat} {v : ValveId} :
    e.receiver n v = none ↔ ∀ k ∈ e.valveLive[v].holds, k = n := by
  simp [Ev.receiver, List.filter_eq_nil_iff]

end Sys2Proof.Machine
end

