-- ==== Sys2Proof/Laws/Kept.lean ====
section
/-! SUPPORT. What the shared operations and the blocks leave as it was: `KeptAtEnd` for the end of an event, `KeptByBlock`
for a block. Later proofs cite these two and never unfold an operation to learn that it leaves a field alone. -/

namespace Sys2Proof.Machine

/-! ## Alarms -/

/-- Only the alarm records and the log of their changes differ; the subscriptions are the same. -/
def OnlyAlarms (e e' : Ev) : Prop :=
  ∃ l log, e' = { e with alarms := l, alarmLog := log } ∧ l.subscriptions = e.alarms.subscriptions

namespace OnlyAlarms

variable {a b : Ev}

theorem refl (e : Ev) : OnlyAlarms e e := ⟨e.alarms, e.alarmLog, rfl, rfl⟩

theorem trans {c : Ev} (h : OnlyAlarms a b) (k : OnlyAlarms b c) : OnlyAlarms a c := by
  obtain ⟨l, log, rfl, h2⟩ := h
  obtain ⟨l', log', rfl, k2⟩ := k
  exact ⟨l', log', rfl, k2.trans h2⟩

theorem modAlarms (h : OnlyAlarms a b) (f : AlarmList → AlarmList)
    (hf : (f b.alarms).subscriptions = b.alarms.subscriptions) : OnlyAlarms a (b.modAlarms f) :=
  h.trans ⟨f b.alarms, b.alarmLog, rfl, hf⟩

theorem logAlarm (h : OnlyAlarms a b) (r : AlarmRec) (c : AlarmCause) : OnlyAlarms a (b.logAlarm r c) := by
  refine h.trans ⟨_, _, rfl, ?_⟩
  dsimp only
  split <;> rfl

theorem raiseOverflow (h : OnlyAlarms a b) : OnlyAlarms a b.raiseOverflow :=
  (h.modAlarms _ rfl).logAlarm _ _

theorem generalFreed (h : OnlyAlarms a b) : OnlyAlarms a b.generalFreed := by
  unfold Ev.generalFreed
  split
  · exact h
  · split
    · exact (h.modAlarms _ rfl).logAlarm _ _
    · exact (h.modAlarms _ rfl).logAlarm _ _
    · exact h

theorem newAlarm (h : OnlyAlarms a b) (r : AlarmRec) : OnlyAlarms a (b.newAlarm r) := (h.modAlarms _ rfl).logAlarm _ _

theorem raise (h : OnlyAlarms a b) (k : AlarmKind) (o pr : Nat) (pl : Byte) : OnlyAlarms a (b.raise k o pr pl) := by
  unfold Ev.raise Ev.unsilence
  refine modAlarms ?_ _ (by split <;> rfl)
  split
  · exact (h.modAlarms _ rfl).logAlarm _ _
  · split
    · exact h.newAlarm _
    · split
      · exact (((h.modAlarms _ rfl).logAlarm _ _).newAlarm _).generalFreed
      · exact h.raiseOverflow

theorem clear (h : OnlyAlarms a b) (k : AlarmKind) (o : Nat) : OnlyAlarms a (b.clear k o) := by
  unfold Ev.clear
  split
  · exact h
  · split
    · exact (h.modAlarms _ rfl).logAlarm _ _
    · exact ((h.modAlarms _ rfl).logAlarm _ _).generalFreed
    · exact h

theorem withdrawAlarm (h : OnlyAlarms a b) (k : AlarmKind) (o : Nat) : OnlyAlarms a (b.withdrawAlarm k o) := by
  unfold Ev.withdrawAlarm
  split
  · exact h
  · exact ((h.modAlarms _ rfl).logAlarm _ _).generalFreed

theorem ackOverflow (h : OnlyAlarms a b) (o : AlarmRec) : OnlyAlarms a (b.ackOverflow o) := by
  unfold Ev.ackOverflow
  split
  · exact (h.modAlarms _ rfl).logAlarm _ _
  · exact (h.modAlarms _ rfl).logAlarm _ _
  · exact h

theorem ackGeneral (h : OnlyAlarms a b) (o : AlarmRec) : OnlyAlarms a (b.ackGeneral o) := by
  unfold Ev.ackGeneral
  split
  · exact (h.modAlarms _ rfl).logAlarm _ _
  · exact ((h.modAlarms _ rfl).logAlarm _ _).generalFreed
  · exact h

end OnlyAlarms

/-! ## Tables -/

theorem upd_self {α : Type} {n : Nat} (xs : Vector α n) (i : Fin n) (f : α → α) : (upd xs i f)[i] = f xs[i] := by
  simp [upd]

theorem upd_ne {α : Type} {n : Nat} (xs : Vector α n) {i j : Fin n} (f : α → α) (h : i ≠ j) : (upd xs i f)[j] = xs[j] := by
  have : i.val ≠ j.val := fun k => h (Fin.ext k)
  simp [upd, this]

/-- A test of the entries that holds of `f` at one entry and of what was at the others holds of the whole. -/
theorem upd_cases {α : Type} {n : Nat} {P : Fin n → α → Prop} (xs : Vector α n) (i : Fin n) (f : α → α)
    (hi : P i (f xs[i])) (ho : ∀ j, i ≠ j → P j xs[j]) (j : Fin n) : P j (upd xs i f)[j] := by
  by_cases h : i = j
  · subst h
    rw [upd_self]
    exact hi
  · rw [upd_ne xs f h]
    exact ho j h

/-! ## The end of an event -/

/-- A port as the end of an event leaves it: only frames at the end of its queue, drops and its alarm-resync mark. -/
structure PortKept (l l' : LinkPort) : Prop where
  role : l'.role = l.role
  rate : l'.rate = l.rate
  receiver : l'.receiver = l.receiver
  backlog : l'.backlog = l.backlog
  gap : l'.gap = l.gap
  state : l'.state = l.state
  liveness : l'.liveness = l.liveness
  held : l'.held = l.held
  validCount : l'.validCount = l.validCount
  crcCount : l'.crcCount = l.crcCount
  lengthCount : l'.lengthCount = l.lengthCount
  abortCount : l'.abortCount = l.abortCount
  discardCount : l'.discardCount = l.discardCount
  queue : l.queue <+: l'.queue

theorem PortKept.refl (l : LinkPort) : PortKept l l :=
  ⟨rfl, rfl, rfl, rfl, rfl, rfl, rfl, rfl, rfl, rfl, rfl, rfl, rfl, List.prefix_refl _⟩

theorem PortKept.trans {l m n : LinkPort} (h : PortKept l m) (k : PortKept m n) : PortKept l n :=
  ⟨k.role.trans h.role, k.rate.trans h.rate, k.receiver.trans h.receiver, k.backlog.trans h.backlog, k.gap.trans h.gap,
    k.state.trans h.state, k.liveness.trans h.liveness, k.held.trans h.held, k.validCount.trans h.validCount,
    k.crcCount.trans h.crcCount, k.lengthCount.trans h.lengthCount, k.abortCount.trans h.abortCount,
    k.discardCount.trans h.discardCount, h.queue.trans k.queue⟩

theorem PortKept.push (l : LinkPort) (body : List Byte) : PortKept l (l.push body) :=
  ⟨rfl, rfl, rfl, rfl, rfl, rfl, rfl, rfl, rfl, rfl, rfl, rfl, rfl, List.prefix_append _ _⟩

/-- What the end of an event leaves as it was. -/
structure KeptAtEnd (a b : Ev) : Prop where
  pending : b.pending = a.pending
  events : b.events = a.events
  now : b.now = a.now
  frameNumber : b.frameNumber = a.frameNumber
  nextFrame : b.nextFrame = a.nextFrame
  mode : b.mode = a.mode
  table : b.table = a.table
  store : b.store = a.store
  segLive : b.segLive = a.segLive
  feedState : b.feedState = a.feedState
  stationLive : b.stationLive = a.stationLive
  outages : b.outages = a.outages
  generation : b.tracer.generation = a.tracer.generation
  deliveries : b.tracer.deliveries = a.tracer.deliveries
  subscriptions : b.alarms.subscriptions = a.alarms.subscriptions
  callRecords : b.calls.calls = a.calls.calls
  arrivals : b.calls.arrivals = a.calls.arrivals
  lastIncident : b.calls.lastIncident = a.calls.lastIncident
  position : ∀ v : ValveId, b.valveLive[v].position = a.valveLive[v].position
  fault : ∀ v : ValveId, b.valveLive[v].fault = a.valveLive[v].fault
  lastChange : ∀ v : ValveId, b.valveLive[v].lastChange = a.valveLive[v].lastChange
  ports : ∀ p : Port, PortKept a.ports[p] b.ports[p]

namespace KeptAtEnd

variable {a b : Ev}

theorem refl (e : Ev) : KeptAtEnd e e :=
  ⟨rfl, rfl, rfl, rfl, rfl, rfl, rfl, rfl, rfl, rfl, rfl, rfl, rfl, rfl, rfl, rfl, rfl, rfl, fun _ => rfl, fun _ => rfl,
    fun _ => rfl, fun _ => .refl _⟩

theorem trans {c : Ev} (h : KeptAtEnd a b) (k : KeptAtEnd b c) : KeptAtEnd a c :=
  ⟨k.pending.trans h.pending, k.events.trans h.events, k.now.trans h.now, k.frameNumber.trans h.frameNumber,
    k.nextFrame.trans h.nextFrame, k.mode.trans h.mode, k.table.trans h.table, k.store.trans h.store,
    k.segLive.trans h.segLive, k.feedState.trans h.feedState, k.stationLive.trans h.stationLive,
    k.outages.trans h.outages, k.generation.trans h.generation, k.deliveries.trans h.deliveries,
    k.subscriptions.trans h.subscriptions, k.callRecords.trans h.callRecords, k.arrivals.trans h.arrivals,
    k.lastIncident.trans h.lastIncident, fun v => (k.position v).trans (h.position v),
    fun v => (k.fault v).trans (h.fault v), fun v => (k.lastChange v).trans (h.lastChange v),
    fun p => (h.ports p).trans (k.ports p)⟩

theorem ofAlarms (h : OnlyAlarms a b) : KeptAtEnd a b := by
  obtain ⟨l, log, rfl, hs⟩ := h
  exact ⟨rfl, rfl, rfl, rfl, rfl, rfl, rfl, rfl, rfl, rfl, rfl, rfl, rfl, rfl, hs, rfl, rfl, rfl, fun _ => rfl,
    fun _ => rfl, fun _ => rfl, fun _ => .refl _⟩

theorem ofState (h : b.toState = a.toState) : KeptAtEnd a b := by
  cases a
  cases b
  simp only at h
  subst h
  exact ⟨rfl, rfl, rfl, rfl, rfl, rfl, rfl, rfl, rfl, rfl, rfl, rfl, rfl, rfl, rfl, rfl, rfl, rfl, fun _ => rfl,
    fun _ => rfl, fun _ => rfl, fun _ => .refl _⟩

theorem modPort (e : Ev) (p : Port) (f : LinkPort → LinkPort) (hf : PortKept e.ports[p] (f e.ports[p])) :
    KeptAtEnd e (e.modPort p f) :=
  ⟨rfl, rfl, rfl, rfl, rfl, rfl, rfl, rfl, rfl, rfl, rfl, rfl, rfl, rfl, rfl, rfl, rfl, rfl, fun _ => rfl, fun _ => rfl,
    fun _ => rfl, upd_cases (P := fun k l => PortKept e.ports[k] l) e.ports p f hf (fun _ _ => .refl _)⟩

theorem modValve (e : Ev) (v : ValveId) (f : ValveLive → ValveLive)
    (hf : ∀ l, (f l).position = l.position ∧ (f l).fault = l.fault ∧ (f l).lastChange = l.lastChange) :
    KeptAtEnd e (e.modValve v f) :=
  ⟨rfl, rfl, rfl, rfl, rfl, rfl, rfl, rfl, rfl, rfl, rfl, rfl, rfl, rfl, rfl, rfl, rfl, rfl,
    upd_cases (P := fun k l => l.position = e.valveLive[k].position) e.valveLive v f (hf _).1 (fun _ _ => rfl),
    upd_cases (P := fun k l => l.fault = e.valveLive[k].fault) e.valveLive v f (hf _).2.1 (fun _ _ => rfl),
    upd_cases (P := fun k l => l.lastChange = e.valveLive[k].lastChange) e.valveLive v f (hf _).2.2 (fun _ _ => rfl),
    fun _ => .refl _⟩

/-- The fields away from those a primitive change touches, each by definition. -/
theorem ofStep (h : Settle1 a b) : KeptAtEnd a b := by
  cases h with
  | marks hs _ _ => exact ofState hs
  | bump =>
    unfold Ev.bump
    split
    · exact refl _
    · exact ⟨rfl, rfl, rfl, rfl, rfl, rfl, rfl, rfl, rfl, rfl, rfl, rfl, rfl, rfl, rfl, rfl, rfl, rfl, fun _ => rfl,
        fun _ => rfl, fun _ => rfl, fun _ => .refl _⟩
  | push p body _ => exact modPort _ _ _ (.push _ _)
  | portMark p f hf =>
    obtain ⟨d, m, hl⟩ := hf a.ports[p]
    exact modPort _ _ _ (hl ▸ ⟨rfl, rfl, rfl, rfl, rfl, rfl, rfl, rfl, rfl, rfl, rfl, rfl, rfl, List.prefix_refl _⟩)
  | raise k o pr pl => exact ofAlarms ((OnlyAlarms.refl _).raise _ _ _ _)
  | clear k o => exact ofAlarms ((OnlyAlarms.refl _).clear _ _)
  | tracer f hf =>
    exact ⟨rfl, rfl, rfl, rfl, rfl, rfl, rfl, rfl, rfl, rfl, rfl, rfl, (hf _).1, (hf _).2, rfl, rfl, rfl, rfl,
      fun _ => rfl, fun _ => rfl, fun _ => rfl, fun _ => .refl _⟩
  | valve v f hf => exact modValve _ _ _ hf
  | queueOrder w i _ =>
    unfold Ev.queueOrder
    dsimp only
    split <;> exact ⟨rfl, rfl, rfl, rfl, rfl, rfl, rfl, rfl, rfl, rfl, rfl, rfl, rfl, rfl, rfl, rfl, rfl, rfl,
      fun _ => rfl, fun _ => rfl, fun _ => rfl, fun _ => .refl _⟩
  | _ => exact ⟨rfl, rfl, rfl, rfl, rfl, rfl, rfl, rfl, rfl, rfl, rfl, rfl, rfl, rfl, rfl, rfl, rfl, rfl, fun _ => rfl,
      fun _ => rfl, fun _ => rfl, fun _ => .refl _⟩

theorem ofSettles (h : Settles a b) : KeptAtEnd a b := by
  induction h with
  | refl => exact refl _
  | tail _ s ih => exact ih.trans (ofStep s)

end KeptAtEnd

/-- The end of an event: the state it answers is some event's state that keeps what `KeptAtEnd` says. -/
theorem finish_kept (e : Ev) : ∃ e', KeptAtEnd e e' ∧ e.finish = e'.toState :=
  let ⟨e', h, hf⟩ := Settles.finish e
  ⟨e', .ofSettles h, hf⟩

/-! ## Blocks -/

/-- What no block of `Acts` changes. -/
structure KeptByBlock (a b : Ev) : Prop where
  pending : b.pending = a.pending
  events : b.events = a.events
  now : b.now = a.now
  frameNumber : b.frameNumber = a.frameNumber
  nextFrame : b.nextFrame = a.nextFrame
  mode : b.mode = a.mode
  table : b.table = a.table
  copy : b.store.copy = a.store.copy
  valid : b.store.valid = a.store.valid
  lock : b.store.lock = a.store.lock
  segLive : b.segLive = a.segLive
  subscriptions : b.alarms.subscriptions = a.alarms.subscriptions
  roles : ∀ p : Port, b.ports[p].role = a.ports[p].role
  rates : ∀ p : Port, b.ports[p].rate = a.ports[p].rate

namespace KeptByBlock

variable {a b : Ev}

theorem refl (e : Ev) : KeptByBlock e e :=
  ⟨rfl, rfl, rfl, rfl, rfl, rfl, rfl, rfl, rfl, rfl, rfl, rfl, fun _ => rfl, fun _ => rfl⟩

theorem trans {c : Ev} (h : KeptByBlock a b) (k : KeptByBlock b c) : KeptByBlock a c :=
  ⟨k.pending.trans h.pending, k.events.trans h.events, k.now.trans h.now, k.frameNumber.trans h.frameNumber,
    k.nextFrame.trans h.nextFrame, k.mode.trans h.mode, k.table.trans h.table, k.copy.trans h.copy,
    k.valid.trans h.valid, k.lock.trans h.lock, k.segLive.trans h.segLive, k.subscriptions.trans h.subscriptions,
    fun p => (k.roles p).trans (h.roles p), fun p => (k.rates p).trans (h.rates p)⟩

theorem ofEnd (h : KeptAtEnd a b) : KeptByBlock a b :=
  ⟨h.pending, h.events, h.now, h.frameNumber, h.nextFrame, h.mode, h.table, by rw [h.store], by rw [h.store],
    by rw [h.store], h.segLive, h.subscriptions, fun p => (h.ports p).role, fun p => (h.ports p).rate⟩

theorem modPort (e : Ev) (p : Port) (f : LinkPort → LinkPort) (hr : (f e.ports[p]).role = e.ports[p].role)
    (ha : (f e.ports[p]).rate = e.ports[p].rate) : KeptByBlock e (e.modPort p f) :=
  ⟨rfl, rfl, rfl, rfl, rfl, rfl, rfl, rfl, rfl, rfl, rfl, rfl,
    upd_cases (P := fun k l => l.role = e.ports[k].role) e.ports p f hr (fun _ _ => rfl),
    upd_cases (P := fun k l => l.rate = e.ports[k].rate) e.ports p f ha (fun _ _ => rfl)⟩

theorem ofStep (h : Act1 a b) : KeptByBlock a b := by
  cases h with
  | settle h => exact ofEnd (.ofStep h)
  | withdrawAlarm k o => exact ofEnd (.ofAlarms ((OnlyAlarms.refl _).withdrawAlarm _ _))
  | ackGeneral o => exact ofEnd (.ofAlarms ((OnlyAlarms.refl _).ackGeneral _))
  | ackOverflow o => exact ofEnd (.ofAlarms ((OnlyAlarms.refl _).ackOverflow _))
  | port p f _ _ hr ha => exact modPort _ _ _ hr ha
  | portReset p =>
    have h := modPort a p LinkPort.cleared rfl rfl
    exact ⟨rfl, rfl, rfl, rfl, rfl, rfl, rfl, rfl, rfl, rfl, rfl, rfl, h.roles, h.rates⟩
  | _ => exact ⟨rfl, rfl, rfl, rfl, rfl, rfl, rfl, rfl, rfl, rfl, rfl, rfl, fun _ => rfl, fun _ => rfl⟩

theorem ofActs (h : Acts a b) : KeptByBlock a b := by
  induction h with
  | refl => exact refl _
  | tail _ s ih => exact ih.trans (ofStep s)

theorem ofAnswers {q : Sender} (h : Answers q a b) : KeptByBlock a b := by
  obtain ⟨x, c, r, h1, h2⟩ := h
  exact ((ofActs h1).trans (modPort x q.port _ rfl rfl)).trans (ofActs h2)

end KeptByBlock

/-! ## Events and requests -/

theorem Untouched.refl (s : State) : Untouched s s :=
  ⟨rfl, rfl, rfl, rfl, rfl, rfl, rfl, rfl, rfl, rfl, rfl, fun _ => rfl, fun _ => rfl⟩

theorem Untouched.trans {r s t : State} (h : Untouched r s) (k : Untouched s t) : Untouched r t :=
  ⟨k.pending.trans h.pending, k.now.trans h.now, k.frameNumber.trans h.frameNumber, k.nextFrame.trans h.nextFrame,
    k.mode.trans h.mode, k.table.trans h.table, k.copy.trans h.copy, k.valid.trans h.valid, k.lock.trans h.lock,
    k.segLive.trans h.segLive, k.subscriptions.trans h.subscriptions, fun p => (k.roles p).trans (h.roles p),
    fun p => (k.rates p).trans (h.rates p)⟩

/-- An event whose block keeps these fields keeps them. -/
theorem event_kept (f : Ev → Ev) (s : State) (h : KeptByBlock s.begin (f s.begin)) : Untouched s (event f s) := by
  obtain ⟨e', he, hf⟩ := finish_kept (f s.begin)
  have k := h.trans (.ofEnd he)
  rw [event, hf]
  exact ⟨k.pending, k.now, k.frameNumber, k.nextFrame, k.mode, k.table, k.copy, k.valid, k.lock, k.segLive,
    k.subscriptions, k.roles, k.rates⟩

/-- What an event always leaves as its block left it, and the count of events. -/
theorem event_end (f : Ev → Ev) (s : State) : ∃ e', KeptAtEnd (f s.begin) e' ∧ event f s = e'.toState :=
  finish_kept _

/-- The liveness event of a frame keeps these fields. -/
theorem frameSeen_kept (p : Port) (s : State) : Untouched s (event (fun e => e.frameSeen p) s) :=
  event_kept _ s (.ofActs (.frameSeen _ p))

/-- A request whose block keeps these fields keeps them. -/
theorem takeFrame_kept (q : Sender) (bad : Option ReplyCode) (block : Ev → Ev) (s : State)
    (h : ∀ e : Ev, KeptByBlock e (block e)) : Untouched s (takeFrame q bad block s) := by
  unfold takeFrame
  split
  · exact .refl s
  · refine (frameSeen_kept q.port s).trans (event_kept _ _ ?_)
    unfold Ev.offer
    have hold (e : Ev) : KeptByBlock e (e.holdEntry q.port) := .modPort e q.port _ rfl rfl
    have ref (e : Ev) (c : ReplyCode) : KeptByBlock e (e.refuse q c) := .ofAnswers (.refuse q e c)
    split
    · dsimp only
      split
      · exact (hold _).trans (ref _ _)
      · split
        · exact (hold _).trans (h _)
        · exact (hold _).trans (ref _ _)
    · exact .modPort _ _ _ rfl rfl

end Sys2Proof.Machine
end

