-- ==== Sys2Proof/Laws/State.lean ====
section
/-! SUPPORT. One lemma for each field after each basic update of an event's state, each by definition. -/

namespace Sys2Proof.Machine

variable (e : Ev) (s : State)

/-! ## `Ev.modPort` -/

@[simp] theorem Ev.modPort_pending (p : Port) (f : LinkPort → LinkPort) : (e.modPort p f).pending = e.pending := rfl
@[simp] theorem Ev.modPort_events (p : Port) (f : LinkPort → LinkPort) : (e.modPort p f).events = e.events := rfl
@[simp] theorem Ev.modPort_now (p : Port) (f : LinkPort → LinkPort) : (e.modPort p f).now = e.now := rfl
@[simp] theorem Ev.modPort_frameNumber (p : Port) (f : LinkPort → LinkPort) : (e.modPort p f).frameNumber = e.frameNumber := rfl
@[simp] theorem Ev.modPort_nextFrame (p : Port) (f : LinkPort → LinkPort) : (e.modPort p f).nextFrame = e.nextFrame := rfl
@[simp] theorem Ev.modPort_mode (p : Port) (f : LinkPort → LinkPort) : (e.modPort p f).mode = e.mode := rfl
@[simp] theorem Ev.modPort_table (p : Port) (f : LinkPort → LinkPort) : (e.modPort p f).table = e.table := rfl
@[simp] theorem Ev.modPort_store (p : Port) (f : LinkPort → LinkPort) : (e.modPort p f).store = e.store := rfl
@[simp] theorem Ev.modPort_revision (p : Port) (f : LinkPort → LinkPort) : (e.modPort p f).revision = e.revision := rfl
@[simp] theorem Ev.modPort_segLive (p : Port) (f : LinkPort → LinkPort) : (e.modPort p f).segLive = e.segLive := rfl
@[simp] theorem Ev.modPort_valveLive (p : Port) (f : LinkPort → LinkPort) : (e.modPort p f).valveLive = e.valveLive := rfl
@[simp] theorem Ev.modPort_feedState (p : Port) (f : LinkPort → LinkPort) : (e.modPort p f).feedState = e.feedState := rfl
@[simp] theorem Ev.modPort_stationLive (p : Port) (f : LinkPort → LinkPort) : (e.modPort p f).stationLive = e.stationLive := rfl
@[simp] theorem Ev.modPort_poll (p : Port) (f : LinkPort → LinkPort) : (e.modPort p f).poll = e.poll := rfl
@[simp] theorem Ev.modPort_tracer (p : Port) (f : LinkPort → LinkPort) : (e.modPort p f).tracer = e.tracer := rfl
@[simp] theorem Ev.modPort_calls (p : Port) (f : LinkPort → LinkPort) : (e.modPort p f).calls = e.calls := rfl
@[simp] theorem Ev.modPort_planner (p : Port) (f : LinkPort → LinkPort) : (e.modPort p f).planner = e.planner := rfl
@[simp] theorem Ev.modPort_switching (p : Port) (f : LinkPort → LinkPort) : (e.modPort p f).switching = e.switching := rfl
@[simp] theorem Ev.modPort_outages (p : Port) (f : LinkPort → LinkPort) : (e.modPort p f).outages = e.outages := rfl
@[simp] theorem Ev.modPort_alarms (p : Port) (f : LinkPort → LinkPort) : (e.modPort p f).alarms = e.alarms := rfl
@[simp] theorem Ev.modPort_ports (p : Port) (f : LinkPort → LinkPort) : (e.modPort p f).ports = upd e.ports p f := rfl
@[simp] theorem Ev.modPort_bumped (p : Port) (f : LinkPort → LinkPort) : (e.modPort p f).bumped = e.bumped := rfl
@[simp] theorem Ev.modPort_trigger (p : Port) (f : LinkPort → LinkPort) : (e.modPort p f).trigger = e.trigger := rfl
@[simp] theorem Ev.modPort_completed (p : Port) (f : LinkPort → LinkPort) : (e.modPort p f).completed = e.completed := rfl
@[simp] theorem Ev.modPort_retier (p : Port) (f : LinkPort → LinkPort) : (e.modPort p f).retier = e.retier := rfl
@[simp] theorem Ev.modPort_resettle (p : Port) (f : LinkPort → LinkPort) : (e.modPort p f).resettle = e.resettle := rfl
@[simp] theorem Ev.modPort_freed (p : Port) (f : LinkPort → LinkPort) : (e.modPort p f).freed = e.freed := rfl
@[simp] theorem Ev.modPort_wake (p : Port) (f : LinkPort → LinkPort) : (e.modPort p f).wake = e.wake := rfl
@[simp] theorem Ev.modPort_unannounced (p : Port) (f : LinkPort → LinkPort) : (e.modPort p f).unannounced = e.unannounced := rfl
@[simp] theorem Ev.modPort_alarmLog (p : Port) (f : LinkPort → LinkPort) : (e.modPort p f).alarmLog = e.alarmLog := rfl
@[simp] theorem Ev.modPort_incidentLog (p : Port) (f : LinkPort → LinkPort) : (e.modPort p f).incidentLog = e.incidentLog := rfl

/-! ## `Ev.modPlanner` -/

@[simp] theorem Ev.modPlanner_pending (f : Planner → Planner) : (e.modPlanner f).pending = e.pending := rfl
@[simp] theorem Ev.modPlanner_events (f : Planner → Planner) : (e.modPlanner f).events = e.events := rfl
@[simp] theorem Ev.modPlanner_now (f : Planner → Planner) : (e.modPlanner f).now = e.now := rfl
@[simp] theorem Ev.modPlanner_frameNumber (f : Planner → Planner) : (e.modPlanner f).frameNumber = e.frameNumber := rfl
@[simp] theorem Ev.modPlanner_nextFrame (f : Planner → Planner) : (e.modPlanner f).nextFrame = e.nextFrame := rfl
@[simp] theorem Ev.modPlanner_mode (f : Planner → Planner) : (e.modPlanner f).mode = e.mode := rfl
@[simp] theorem Ev.modPlanner_table (f : Planner → Planner) : (e.modPlanner f).table = e.table := rfl
@[simp] theorem Ev.modPlanner_store (f : Planner → Planner) : (e.modPlanner f).store = e.store := rfl
@[simp] theorem Ev.modPlanner_revision (f : Planner → Planner) : (e.modPlanner f).revision = e.revision := rfl
@[simp] theorem Ev.modPlanner_segLive (f : Planner → Planner) : (e.modPlanner f).segLive = e.segLive := rfl
@[simp] theorem Ev.modPlanner_valveLive (f : Planner → Planner) : (e.modPlanner f).valveLive = e.valveLive := rfl
@[simp] theorem Ev.modPlanner_feedState (f : Planner → Planner) : (e.modPlanner f).feedState = e.feedState := rfl
@[simp] theorem Ev.modPlanner_stationLive (f : Planner → Planner) : (e.modPlanner f).stationLive = e.stationLive := rfl
@[simp] theorem Ev.modPlanner_poll (f : Planner → Planner) : (e.modPlanner f).poll = e.poll := rfl
@[simp] theorem Ev.modPlanner_tracer (f : Planner → Planner) : (e.modPlanner f).tracer = e.tracer := rfl
@[simp] theorem Ev.modPlanner_calls (f : Planner → Planner) : (e.modPlanner f).calls = e.calls := rfl
@[simp] theorem Ev.modPlanner_planner (f : Planner → Planner) : (e.modPlanner f).planner = f e.planner := rfl
@[simp] theorem Ev.modPlanner_switching (f : Planner → Planner) : (e.modPlanner f).switching = e.switching := rfl
@[simp] theorem Ev.modPlanner_outages (f : Planner → Planner) : (e.modPlanner f).outages = e.outages := rfl
@[simp] theorem Ev.modPlanner_alarms (f : Planner → Planner) : (e.modPlanner f).alarms = e.alarms := rfl
@[simp] theorem Ev.modPlanner_ports (f : Planner → Planner) : (e.modPlanner f).ports = e.ports := rfl
@[simp] theorem Ev.modPlanner_bumped (f : Planner → Planner) : (e.modPlanner f).bumped = e.bumped := rfl
@[simp] theorem Ev.modPlanner_trigger (f : Planner → Planner) : (e.modPlanner f).trigger = e.trigger := rfl
@[simp] theorem Ev.modPlanner_completed (f : Planner → Planner) : (e.modPlanner f).completed = e.completed := rfl
@[simp] theorem Ev.modPlanner_retier (f : Planner → Planner) : (e.modPlanner f).retier = e.retier := rfl
@[simp] theorem Ev.modPlanner_resettle (f : Planner → Planner) : (e.modPlanner f).resettle = e.resettle := rfl
@[simp] theorem Ev.modPlanner_freed (f : Planner → Planner) : (e.modPlanner f).freed = e.freed := rfl
@[simp] theorem Ev.modPlanner_wake (f : Planner → Planner) : (e.modPlanner f).wake = e.wake := rfl
@[simp] theorem Ev.modPlanner_unannounced (f : Planner → Planner) : (e.modPlanner f).unannounced = e.unannounced := rfl
@[simp] theorem Ev.modPlanner_alarmLog (f : Planner → Planner) : (e.modPlanner f).alarmLog = e.alarmLog := rfl
@[simp] theorem Ev.modPlanner_incidentLog (f : Planner → Planner) : (e.modPlanner f).incidentLog = e.incidentLog := rfl

/-! ## `Ev.modCalls` -/

@[simp] theorem Ev.modCalls_pending (f : CallRegister → CallRegister) : (e.modCalls f).pending = e.pending := rfl
@[simp] theorem Ev.modCalls_events (f : CallRegister → CallRegister) : (e.modCalls f).events = e.events := rfl
@[simp] theorem Ev.modCalls_now (f : CallRegister → CallRegister) : (e.modCalls f).now = e.now := rfl
@[simp] theorem Ev.modCalls_frameNumber (f : CallRegister → CallRegister) : (e.modCalls f).frameNumber = e.frameNumber := rfl
@[simp] theorem Ev.modCalls_nextFrame (f : CallRegister → CallRegister) : (e.modCalls f).nextFrame = e.nextFrame := rfl
@[simp] theorem Ev.modCalls_mode (f : CallRegister → CallRegister) : (e.modCalls f).mode = e.mode := rfl
@[simp] theorem Ev.modCalls_table (f : CallRegister → CallRegister) : (e.modCalls f).table = e.table := rfl
@[simp] theorem Ev.modCalls_store (f : CallRegister → CallRegister) : (e.modCalls f).store = e.store := rfl
@[simp] theorem Ev.modCalls_revision (f : CallRegister → CallRegister) : (e.modCalls f).revision = e.revision := rfl
@[simp] theorem Ev.modCalls_segLive (f : CallRegister → CallRegister) : (e.modCalls f).segLive = e.segLive := rfl
@[simp] theorem Ev.modCalls_valveLive (f : CallRegister → CallRegister) : (e.modCalls f).valveLive = e.valveLive := rfl
@[simp] theorem Ev.modCalls_feedState (f : CallRegister → CallRegister) : (e.modCalls f).feedState = e.feedState := rfl
@[simp] theorem Ev.modCalls_stationLive (f : CallRegister → CallRegister) : (e.modCalls f).stationLive = e.stationLive := rfl
@[simp] theorem Ev.modCalls_poll (f : CallRegister → CallRegister) : (e.modCalls f).poll = e.poll := rfl
@[simp] theorem Ev.modCalls_tracer (f : CallRegister → CallRegister) : (e.modCalls f).tracer = e.tracer := rfl
@[simp] theorem Ev.modCalls_calls (f : CallRegister → CallRegister) : (e.modCalls f).calls = f e.calls := rfl
@[simp] theorem Ev.modCalls_planner (f : CallRegister → CallRegister) : (e.modCalls f).planner = e.planner := rfl
@[simp] theorem Ev.modCalls_switching (f : CallRegister → CallRegister) : (e.modCalls f).switching = e.switching := rfl
@[simp] theorem Ev.modCalls_outages (f : CallRegister → CallRegister) : (e.modCalls f).outages = e.outages := rfl
@[simp] theorem Ev.modCalls_alarms (f : CallRegister → CallRegister) : (e.modCalls f).alarms = e.alarms := rfl
@[simp] theorem Ev.modCalls_ports (f : CallRegister → CallRegister) : (e.modCalls f).ports = e.ports := rfl
@[simp] theorem Ev.modCalls_bumped (f : CallRegister → CallRegister) : (e.modCalls f).bumped = e.bumped := rfl
@[simp] theorem Ev.modCalls_trigger (f : CallRegister → CallRegister) : (e.modCalls f).trigger = e.trigger := rfl
@[simp] theorem Ev.modCalls_completed (f : CallRegister → CallRegister) : (e.modCalls f).completed = e.completed := rfl
@[simp] theorem Ev.modCalls_retier (f : CallRegister → CallRegister) : (e.modCalls f).retier = e.retier := rfl
@[simp] theorem Ev.modCalls_resettle (f : CallRegister → CallRegister) : (e.modCalls f).resettle = e.resettle := rfl
@[simp] theorem Ev.modCalls_freed (f : CallRegister → CallRegister) : (e.modCalls f).freed = e.freed := rfl
@[simp] theorem Ev.modCalls_wake (f : CallRegister → CallRegister) : (e.modCalls f).wake = e.wake := rfl
@[simp] theorem Ev.modCalls_unannounced (f : CallRegister → CallRegister) : (e.modCalls f).unannounced = e.unannounced := rfl
@[simp] theorem Ev.modCalls_alarmLog (f : CallRegister → CallRegister) : (e.modCalls f).alarmLog = e.alarmLog := rfl
@[simp] theorem Ev.modCalls_incidentLog (f : CallRegister → CallRegister) : (e.modCalls f).incidentLog = e.incidentLog := rfl

/-! ## `Ev.modSwitching` -/

@[simp] theorem Ev.modSwitching_pending (f : Switching → Switching) : (e.modSwitching f).pending = e.pending := rfl
@[simp] theorem Ev.modSwitching_events (f : Switching → Switching) : (e.modSwitching f).events = e.events := rfl
@[simp] theorem Ev.modSwitching_now (f : Switching → Switching) : (e.modSwitching f).now = e.now := rfl
@[simp] theorem Ev.modSwitching_frameNumber (f : Switching → Switching) : (e.modSwitching f).frameNumber = e.frameNumber := rfl
@[simp] theorem Ev.modSwitching_nextFrame (f : Switching → Switching) : (e.modSwitching f).nextFrame = e.nextFrame := rfl
@[simp] theorem Ev.modSwitching_mode (f : Switching → Switching) : (e.modSwitching f).mode = e.mode := rfl
@[simp] theorem Ev.modSwitching_table (f : Switching → Switching) : (e.modSwitching f).table = e.table := rfl
@[simp] theorem Ev.modSwitching_store (f : Switching → Switching) : (e.modSwitching f).store = e.store := rfl
@[simp] theorem Ev.modSwitching_revision (f : Switching → Switching) : (e.modSwitching f).revision = e.revision := rfl
@[simp] theorem Ev.modSwitching_segLive (f : Switching → Switching) : (e.modSwitching f).segLive = e.segLive := rfl
@[simp] theorem Ev.modSwitching_valveLive (f : Switching → Switching) : (e.modSwitching f).valveLive = e.valveLive := rfl
@[simp] theorem Ev.modSwitching_feedState (f : Switching → Switching) : (e.modSwitching f).feedState = e.feedState := rfl
@[simp] theorem Ev.modSwitching_stationLive (f : Switching → Switching) : (e.modSwitching f).stationLive = e.stationLive := rfl
@[simp] theorem Ev.modSwitching_poll (f : Switching → Switching) : (e.modSwitching f).poll = e.poll := rfl
@[simp] theorem Ev.modSwitching_tracer (f : Switching → Switching) : (e.modSwitching f).tracer = e.tracer := rfl
@[simp] theorem Ev.modSwitching_calls (f : Switching → Switching) : (e.modSwitching f).calls = e.calls := rfl
@[simp] theorem Ev.modSwitching_planner (f : Switching → Switching) : (e.modSwitching f).planner = e.planner := rfl
@[simp] theorem Ev.modSwitching_switching (f : Switching → Switching) : (e.modSwitching f).switching = f e.switching := rfl
@[simp] theorem Ev.modSwitching_outages (f : Switching → Switching) : (e.modSwitching f).outages = e.outages := rfl
@[simp] theorem Ev.modSwitching_alarms (f : Switching → Switching) : (e.modSwitching f).alarms = e.alarms := rfl
@[simp] theorem Ev.modSwitching_ports (f : Switching → Switching) : (e.modSwitching f).ports = e.ports := rfl
@[simp] theorem Ev.modSwitching_bumped (f : Switching → Switching) : (e.modSwitching f).bumped = e.bumped := rfl
@[simp] theorem Ev.modSwitching_trigger (f : Switching → Switching) : (e.modSwitching f).trigger = e.trigger := rfl
@[simp] theorem Ev.modSwitching_completed (f : Switching → Switching) : (e.modSwitching f).completed = e.completed := rfl
@[simp] theorem Ev.modSwitching_retier (f : Switching → Switching) : (e.modSwitching f).retier = e.retier := rfl
@[simp] theorem Ev.modSwitching_resettle (f : Switching → Switching) : (e.modSwitching f).resettle = e.resettle := rfl
@[simp] theorem Ev.modSwitching_freed (f : Switching → Switching) : (e.modSwitching f).freed = e.freed := rfl
@[simp] theorem Ev.modSwitching_wake (f : Switching → Switching) : (e.modSwitching f).wake = e.wake := rfl
@[simp] theorem Ev.modSwitching_unannounced (f : Switching → Switching) : (e.modSwitching f).unannounced = e.unannounced := rfl
@[simp] theorem Ev.modSwitching_alarmLog (f : Switching → Switching) : (e.modSwitching f).alarmLog = e.alarmLog := rfl
@[simp] theorem Ev.modSwitching_incidentLog (f : Switching → Switching) : (e.modSwitching f).incidentLog = e.incidentLog := rfl

/-! ## `Ev.modTracer` -/

@[simp] theorem Ev.modTracer_pending (f : Tracer → Tracer) : (e.modTracer f).pending = e.pending := rfl
@[simp] theorem Ev.modTracer_events (f : Tracer → Tracer) : (e.modTracer f).events = e.events := rfl
@[simp] theorem Ev.modTracer_now (f : Tracer → Tracer) : (e.modTracer f).now = e.now := rfl
@[simp] theorem Ev.modTracer_frameNumber (f : Tracer → Tracer) : (e.modTracer f).frameNumber = e.frameNumber := rfl
@[simp] theorem Ev.modTracer_nextFrame (f : Tracer → Tracer) : (e.modTracer f).nextFrame = e.nextFrame := rfl
@[simp] theorem Ev.modTracer_mode (f : Tracer → Tracer) : (e.modTracer f).mode = e.mode := rfl
@[simp] theorem Ev.modTracer_table (f : Tracer → Tracer) : (e.modTracer f).table = e.table := rfl
@[simp] theorem Ev.modTracer_store (f : Tracer → Tracer) : (e.modTracer f).store = e.store := rfl
@[simp] theorem Ev.modTracer_revision (f : Tracer → Tracer) : (e.modTracer f).revision = e.revision := rfl
@[simp] theorem Ev.modTracer_segLive (f : Tracer → Tracer) : (e.modTracer f).segLive = e.segLive := rfl
@[simp] theorem Ev.modTracer_valveLive (f : Tracer → Tracer) : (e.modTracer f).valveLive = e.valveLive := rfl
@[simp] theorem Ev.modTracer_feedState (f : Tracer → Tracer) : (e.modTracer f).feedState = e.feedState := rfl
@[simp] theorem Ev.modTracer_stationLive (f : Tracer → Tracer) : (e.modTracer f).stationLive = e.stationLive := rfl
@[simp] theorem Ev.modTracer_poll (f : Tracer → Tracer) : (e.modTracer f).poll = e.poll := rfl
@[simp] theorem Ev.modTracer_tracer (f : Tracer → Tracer) : (e.modTracer f).tracer = f e.tracer := rfl
@[simp] theorem Ev.modTracer_calls (f : Tracer → Tracer) : (e.modTracer f).calls = e.calls := rfl
@[simp] theorem Ev.modTracer_planner (f : Tracer → Tracer) : (e.modTracer f).planner = e.planner := rfl
@[simp] theorem Ev.modTracer_switching (f : Tracer → Tracer) : (e.modTracer f).switching = e.switching := rfl
@[simp] theorem Ev.modTracer_outages (f : Tracer → Tracer) : (e.modTracer f).outages = e.outages := rfl
@[simp] theorem Ev.modTracer_alarms (f : Tracer → Tracer) : (e.modTracer f).alarms = e.alarms := rfl
@[simp] theorem Ev.modTracer_ports (f : Tracer → Tracer) : (e.modTracer f).ports = e.ports := rfl
@[simp] theorem Ev.modTracer_bumped (f : Tracer → Tracer) : (e.modTracer f).bumped = e.bumped := rfl
@[simp] theorem Ev.modTracer_trigger (f : Tracer → Tracer) : (e.modTracer f).trigger = e.trigger := rfl
@[simp] theorem Ev.modTracer_completed (f : Tracer → Tracer) : (e.modTracer f).completed = e.completed := rfl
@[simp] theorem Ev.modTracer_retier (f : Tracer → Tracer) : (e.modTracer f).retier = e.retier := rfl
@[simp] theorem Ev.modTracer_resettle (f : Tracer → Tracer) : (e.modTracer f).resettle = e.resettle := rfl
@[simp] theorem Ev.modTracer_freed (f : Tracer → Tracer) : (e.modTracer f).freed = e.freed := rfl
@[simp] theorem Ev.modTracer_wake (f : Tracer → Tracer) : (e.modTracer f).wake = e.wake := rfl
@[simp] theorem Ev.modTracer_unannounced (f : Tracer → Tracer) : (e.modTracer f).unannounced = e.unannounced := rfl
@[simp] theorem Ev.modTracer_alarmLog (f : Tracer → Tracer) : (e.modTracer f).alarmLog = e.alarmLog := rfl
@[simp] theorem Ev.modTracer_incidentLog (f : Tracer → Tracer) : (e.modTracer f).incidentLog = e.incidentLog := rfl

/-! ## `Ev.modPoll` -/

@[simp] theorem Ev.modPoll_pending (f : Poll → Poll) : (e.modPoll f).pending = e.pending := rfl
@[simp] theorem Ev.modPoll_events (f : Poll → Poll) : (e.modPoll f).events = e.events := rfl
@[simp] theorem Ev.modPoll_now (f : Poll → Poll) : (e.modPoll f).now = e.now := rfl
@[simp] theorem Ev.modPoll_frameNumber (f : Poll → Poll) : (e.modPoll f).frameNumber = e.frameNumber := rfl
@[simp] theorem Ev.modPoll_nextFrame (f : Poll → Poll) : (e.modPoll f).nextFrame = e.nextFrame := rfl
@[simp] theorem Ev.modPoll_mode (f : Poll → Poll) : (e.modPoll f).mode = e.mode := rfl
@[simp] theorem Ev.modPoll_table (f : Poll → Poll) : (e.modPoll f).table = e.table := rfl
@[simp] theorem Ev.modPoll_store (f : Poll → Poll) : (e.modPoll f).store = e.store := rfl
@[simp] theorem Ev.modPoll_revision (f : Poll → Poll) : (e.modPoll f).revision = e.revision := rfl
@[simp] theorem Ev.modPoll_segLive (f : Poll → Poll) : (e.modPoll f).segLive = e.segLive := rfl
@[simp] theorem Ev.modPoll_valveLive (f : Poll → Poll) : (e.modPoll f).valveLive = e.valveLive := rfl
@[simp] theorem Ev.modPoll_feedState (f : Poll → Poll) : (e.modPoll f).feedState = e.feedState := rfl
@[simp] theorem Ev.modPoll_stationLive (f : Poll → Poll) : (e.modPoll f).stationLive = e.stationLive := rfl
@[simp] theorem Ev.modPoll_poll (f : Poll → Poll) : (e.modPoll f).poll = f e.poll := rfl
@[simp] theorem Ev.modPoll_tracer (f : Poll → Poll) : (e.modPoll f).tracer = e.tracer := rfl
@[simp] theorem Ev.modPoll_calls (f : Poll → Poll) : (e.modPoll f).calls = e.calls := rfl
@[simp] theorem Ev.modPoll_planner (f : Poll → Poll) : (e.modPoll f).planner = e.planner := rfl
@[simp] theorem Ev.modPoll_switching (f : Poll → Poll) : (e.modPoll f).switching = e.switching := rfl
@[simp] theorem Ev.modPoll_outages (f : Poll → Poll) : (e.modPoll f).outages = e.outages := rfl
@[simp] theorem Ev.modPoll_alarms (f : Poll → Poll) : (e.modPoll f).alarms = e.alarms := rfl
@[simp] theorem Ev.modPoll_ports (f : Poll → Poll) : (e.modPoll f).ports = e.ports := rfl
@[simp] theorem Ev.modPoll_bumped (f : Poll → Poll) : (e.modPoll f).bumped = e.bumped := rfl
@[simp] theorem Ev.modPoll_trigger (f : Poll → Poll) : (e.modPoll f).trigger = e.trigger := rfl
@[simp] theorem Ev.modPoll_completed (f : Poll → Poll) : (e.modPoll f).completed = e.completed := rfl
@[simp] theorem Ev.modPoll_retier (f : Poll → Poll) : (e.modPoll f).retier = e.retier := rfl
@[simp] theorem Ev.modPoll_resettle (f : Poll → Poll) : (e.modPoll f).resettle = e.resettle := rfl
@[simp] theorem Ev.modPoll_freed (f : Poll → Poll) : (e.modPoll f).freed = e.freed := rfl
@[simp] theorem Ev.modPoll_wake (f : Poll → Poll) : (e.modPoll f).wake = e.wake := rfl
@[simp] theorem Ev.modPoll_unannounced (f : Poll → Poll) : (e.modPoll f).unannounced = e.unannounced := rfl
@[simp] theorem Ev.modPoll_alarmLog (f : Poll → Poll) : (e.modPoll f).alarmLog = e.alarmLog := rfl
@[simp] theorem Ev.modPoll_incidentLog (f : Poll → Poll) : (e.modPoll f).incidentLog = e.incidentLog := rfl

/-! ## `Ev.modOutages` -/

@[simp] theorem Ev.modOutages_pending (f : OutageRegister → OutageRegister) : (e.modOutages f).pending = e.pending := rfl
@[simp] theorem Ev.modOutages_events (f : OutageRegister → OutageRegister) : (e.modOutages f).events = e.events := rfl
@[simp] theorem Ev.modOutages_now (f : OutageRegister → OutageRegister) : (e.modOutages f).now = e.now := rfl
@[simp] theorem Ev.modOutages_frameNumber (f : OutageRegister → OutageRegister) : (e.modOutages f).frameNumber = e.frameNumber := rfl
@[simp] theorem Ev.modOutages_nextFrame (f : OutageRegister → OutageRegister) : (e.modOutages f).nextFrame = e.nextFrame := rfl
@[simp] theorem Ev.modOutages_mode (f : OutageRegister → OutageRegister) : (e.modOutages f).mode = e.mode := rfl
@[simp] theorem Ev.modOutages_table (f : OutageRegister → OutageRegister) : (e.modOutages f).table = e.table := rfl
@[simp] theorem Ev.modOutages_store (f : OutageRegister → OutageRegister) : (e.modOutages f).store = e.store := rfl
@[simp] theorem Ev.modOutages_revision (f : OutageRegister → OutageRegister) : (e.modOutages f).revision = e.revision := rfl
@[simp] theorem Ev.modOutages_segLive (f : OutageRegister → OutageRegister) : (e.modOutages f).segLive = e.segLive := rfl
@[simp] theorem Ev.modOutages_valveLive (f : OutageRegister → OutageRegister) : (e.modOutages f).valveLive = e.valveLive := rfl
@[simp] theorem Ev.modOutages_feedState (f : OutageRegister → OutageRegister) : (e.modOutages f).feedState = e.feedState := rfl
@[simp] theorem Ev.modOutages_stationLive (f : OutageRegister → OutageRegister) : (e.modOutages f).stationLive = e.stationLive := rfl
@[simp] theorem Ev.modOutages_poll (f : OutageRegister → OutageRegister) : (e.modOutages f).poll = e.poll := rfl
@[simp] theorem Ev.modOutages_tracer (f : OutageRegister → OutageRegister) : (e.modOutages f).tracer = e.tracer := rfl
@[simp] theorem Ev.modOutages_calls (f : OutageRegister → OutageRegister) : (e.modOutages f).calls = e.calls := rfl
@[simp] theorem Ev.modOutages_planner (f : OutageRegister → OutageRegister) : (e.modOutages f).planner = e.planner := rfl
@[simp] theorem Ev.modOutages_switching (f : OutageRegister → OutageRegister) : (e.modOutages f).switching = e.switching := rfl
@[simp] theorem Ev.modOutages_outages (f : OutageRegister → OutageRegister) : (e.modOutages f).outages = f e.outages := rfl
@[simp] theorem Ev.modOutages_alarms (f : OutageRegister → OutageRegister) : (e.modOutages f).alarms = e.alarms := rfl
@[simp] theorem Ev.modOutages_ports (f : OutageRegister → OutageRegister) : (e.modOutages f).ports = e.ports := rfl
@[simp] theorem Ev.modOutages_bumped (f : OutageRegister → OutageRegister) : (e.modOutages f).bumped = e.bumped := rfl
@[simp] theorem Ev.modOutages_trigger (f : OutageRegister → OutageRegister) : (e.modOutages f).trigger = e.trigger := rfl
@[simp] theorem Ev.modOutages_completed (f : OutageRegister → OutageRegister) : (e.modOutages f).completed = e.completed := rfl
@[simp] theorem Ev.modOutages_retier (f : OutageRegister → OutageRegister) : (e.modOutages f).retier = e.retier := rfl
@[simp] theorem Ev.modOutages_resettle (f : OutageRegister → OutageRegister) : (e.modOutages f).resettle = e.resettle := rfl
@[simp] theorem Ev.modOutages_freed (f : OutageRegister → OutageRegister) : (e.modOutages f).freed = e.freed := rfl
@[simp] theorem Ev.modOutages_wake (f : OutageRegister → OutageRegister) : (e.modOutages f).wake = e.wake := rfl
@[simp] theorem Ev.modOutages_unannounced (f : OutageRegister → OutageRegister) : (e.modOutages f).unannounced = e.unannounced := rfl
@[simp] theorem Ev.modOutages_alarmLog (f : OutageRegister → OutageRegister) : (e.modOutages f).alarmLog = e.alarmLog := rfl
@[simp] theorem Ev.modOutages_incidentLog (f : OutageRegister → OutageRegister) : (e.modOutages f).incidentLog = e.incidentLog := rfl

/-! ## `Ev.modAlarms` -/

@[simp] theorem Ev.modAlarms_pending (f : AlarmList → AlarmList) : (e.modAlarms f).pending = e.pending := rfl
@[simp] theorem Ev.modAlarms_events (f : AlarmList → AlarmList) : (e.modAlarms f).events = e.events := rfl
@[simp] theorem Ev.modAlarms_now (f : AlarmList → AlarmList) : (e.modAlarms f).now = e.now := rfl
@[simp] theorem Ev.modAlarms_frameNumber (f : AlarmList → AlarmList) : (e.modAlarms f).frameNumber = e.frameNumber := rfl
@[simp] theorem Ev.modAlarms_nextFrame (f : AlarmList → AlarmList) : (e.modAlarms f).nextFrame = e.nextFrame := rfl
@[simp] theorem Ev.modAlarms_mode (f : AlarmList → AlarmList) : (e.modAlarms f).mode = e.mode := rfl
@[simp] theorem Ev.modAlarms_table (f : AlarmList → AlarmList) : (e.modAlarms f).table = e.table := rfl
@[simp] theorem Ev.modAlarms_store (f : AlarmList → AlarmList) : (e.modAlarms f).store = e.store := rfl
@[simp] theorem Ev.modAlarms_revision (f : AlarmList → AlarmList) : (e.modAlarms f).revision = e.revision := rfl
@[simp] theorem Ev.modAlarms_segLive (f : AlarmList → AlarmList) : (e.modAlarms f).segLive = e.segLive := rfl
@[simp] theorem Ev.modAlarms_valveLive (f : AlarmList → AlarmList) : (e.modAlarms f).valveLive = e.valveLive := rfl
@[simp] theorem Ev.modAlarms_feedState (f : AlarmList → AlarmList) : (e.modAlarms f).feedState = e.feedState := rfl
@[simp] theorem Ev.modAlarms_stationLive (f : AlarmList → AlarmList) : (e.modAlarms f).stationLive = e.stationLive := rfl
@[simp] theorem Ev.modAlarms_poll (f : AlarmList → AlarmList) : (e.modAlarms f).poll = e.poll := rfl
@[simp] theorem Ev.modAlarms_tracer (f : AlarmList → AlarmList) : (e.modAlarms f).tracer = e.tracer := rfl
@[simp] theorem Ev.modAlarms_calls (f : AlarmList → AlarmList) : (e.modAlarms f).calls = e.calls := rfl
@[simp] theorem Ev.modAlarms_planner (f : AlarmList → AlarmList) : (e.modAlarms f).planner = e.planner := rfl
@[simp] theorem Ev.modAlarms_switching (f : AlarmList → AlarmList) : (e.modAlarms f).switching = e.switching := rfl
@[simp] theorem Ev.modAlarms_outages (f : AlarmList → AlarmList) : (e.modAlarms f).outages = e.outages := rfl
@[simp] theorem Ev.modAlarms_alarms (f : AlarmList → AlarmList) : (e.modAlarms f).alarms = f e.alarms := rfl
@[simp] theorem Ev.modAlarms_ports (f : AlarmList → AlarmList) : (e.modAlarms f).ports = e.ports := rfl
@[simp] theorem Ev.modAlarms_bumped (f : AlarmList → AlarmList) : (e.modAlarms f).bumped = e.bumped := rfl
@[simp] theorem Ev.modAlarms_trigger (f : AlarmList → AlarmList) : (e.modAlarms f).trigger = e.trigger := rfl
@[simp] theorem Ev.modAlarms_completed (f : AlarmList → AlarmList) : (e.modAlarms f).completed = e.completed := rfl
@[simp] theorem Ev.modAlarms_retier (f : AlarmList → AlarmList) : (e.modAlarms f).retier = e.retier := rfl
@[simp] theorem Ev.modAlarms_resettle (f : AlarmList → AlarmList) : (e.modAlarms f).resettle = e.resettle := rfl
@[simp] theorem Ev.modAlarms_freed (f : AlarmList → AlarmList) : (e.modAlarms f).freed = e.freed := rfl
@[simp] theorem Ev.modAlarms_wake (f : AlarmList → AlarmList) : (e.modAlarms f).wake = e.wake := rfl
@[simp] theorem Ev.modAlarms_unannounced (f : AlarmList → AlarmList) : (e.modAlarms f).unannounced = e.unannounced := rfl
@[simp] theorem Ev.modAlarms_alarmLog (f : AlarmList → AlarmList) : (e.modAlarms f).alarmLog = e.alarmLog := rfl
@[simp] theorem Ev.modAlarms_incidentLog (f : AlarmList → AlarmList) : (e.modAlarms f).incidentLog = e.incidentLog := rfl

/-! ## `Ev.modStation` -/

@[simp] theorem Ev.modStation_pending (i : StationId) (f : StationLive → StationLive) : (e.modStation i f).pending = e.pending := rfl
@[simp] theorem Ev.modStation_events (i : StationId) (f : StationLive → StationLive) : (e.modStation i f).events = e.events := rfl
@[simp] theorem Ev.modStation_now (i : StationId) (f : StationLive → StationLive) : (e.modStation i f).now = e.now := rfl
@[simp] theorem Ev.modStation_frameNumber (i : StationId) (f : StationLive → StationLive) : (e.modStation i f).frameNumber = e.frameNumber := rfl
@[simp] theorem Ev.modStation_nextFrame (i : StationId) (f : StationLive → StationLive) : (e.modStation i f).nextFrame = e.nextFrame := rfl
@[simp] theorem Ev.modStation_mode (i : StationId) (f : StationLive → StationLive) : (e.modStation i f).mode = e.mode := rfl
@[simp] theorem Ev.modStation_table (i : StationId) (f : StationLive → StationLive) : (e.modStation i f).table = e.table := rfl
@[simp] theorem Ev.modStation_store (i : StationId) (f : StationLive → StationLive) : (e.modStation i f).store = e.store := rfl
@[simp] theorem Ev.modStation_revision (i : StationId) (f : StationLive → StationLive) : (e.modStation i f).revision = e.revision := rfl
@[simp] theorem Ev.modStation_segLive (i : StationId) (f : StationLive → StationLive) : (e.modStation i f).segLive = e.segLive := rfl
@[simp] theorem Ev.modStation_valveLive (i : StationId) (f : StationLive → StationLive) : (e.modStation i f).valveLive = e.valveLive := rfl
@[simp] theorem Ev.modStation_feedState (i : StationId) (f : StationLive → StationLive) : (e.modStation i f).feedState = e.feedState := rfl
@[simp] theorem Ev.modStation_stationLive (i : StationId) (f : StationLive → StationLive) : (e.modStation i f).stationLive = upd e.stationLive i f := rfl
@[simp] theorem Ev.modStation_poll (i : StationId) (f : StationLive → StationLive) : (e.modStation i f).poll = e.poll := rfl
@[simp] theorem Ev.modStation_tracer (i : StationId) (f : StationLive → StationLive) : (e.modStation i f).tracer = e.tracer := rfl
@[simp] theorem Ev.modStation_calls (i : StationId) (f : StationLive → StationLive) : (e.modStation i f).calls = e.calls := rfl
@[simp] theorem Ev.modStation_planner (i : StationId) (f : StationLive → StationLive) : (e.modStation i f).planner = e.planner := rfl
@[simp] theorem Ev.modStation_switching (i : StationId) (f : StationLive → StationLive) : (e.modStation i f).switching = e.switching := rfl
@[simp] theorem Ev.modStation_outages (i : StationId) (f : StationLive → StationLive) : (e.modStation i f).outages = e.outages := rfl
@[simp] theorem Ev.modStation_alarms (i : StationId) (f : StationLive → StationLive) : (e.modStation i f).alarms = e.alarms := rfl
@[simp] theorem Ev.modStation_ports (i : StationId) (f : StationLive → StationLive) : (e.modStation i f).ports = e.ports := rfl
@[simp] theorem Ev.modStation_bumped (i : StationId) (f : StationLive → StationLive) : (e.modStation i f).bumped = e.bumped := rfl
@[simp] theorem Ev.modStation_trigger (i : StationId) (f : StationLive → StationLive) : (e.modStation i f).trigger = e.trigger := rfl
@[simp] theorem Ev.modStation_completed (i : StationId) (f : StationLive → StationLive) : (e.modStation i f).completed = e.completed := rfl
@[simp] theorem Ev.modStation_retier (i : StationId) (f : StationLive → StationLive) : (e.modStation i f).retier = e.retier := rfl
@[simp] theorem Ev.modStation_resettle (i : StationId) (f : StationLive → StationLive) : (e.modStation i f).resettle = e.resettle := rfl
@[simp] theorem Ev.modStation_freed (i : StationId) (f : StationLive → StationLive) : (e.modStation i f).freed = e.freed := rfl
@[simp] theorem Ev.modStation_wake (i : StationId) (f : StationLive → StationLive) : (e.modStation i f).wake = e.wake := rfl
@[simp] theorem Ev.modStation_unannounced (i : StationId) (f : StationLive → StationLive) : (e.modStation i f).unannounced = e.unannounced := rfl
@[simp] theorem Ev.modStation_alarmLog (i : StationId) (f : StationLive → StationLive) : (e.modStation i f).alarmLog = e.alarmLog := rfl
@[simp] theorem Ev.modStation_incidentLog (i : StationId) (f : StationLive → StationLive) : (e.modStation i f).incidentLog = e.incidentLog := rfl

/-! ## `Ev.modValve` -/

@[simp] theorem Ev.modValve_pending (v : ValveId) (f : ValveLive → ValveLive) : (e.modValve v f).pending = e.pending := rfl
@[simp] theorem Ev.modValve_events (v : ValveId) (f : ValveLive → ValveLive) : (e.modValve v f).events = e.events := rfl
@[simp] theorem Ev.modValve_now (v : ValveId) (f : ValveLive → ValveLive) : (e.modValve v f).now = e.now := rfl
@[simp] theorem Ev.modValve_frameNumber (v : ValveId) (f : ValveLive → ValveLive) : (e.modValve v f).frameNumber = e.frameNumber := rfl
@[simp] theorem Ev.modValve_nextFrame (v : ValveId) (f : ValveLive → ValveLive) : (e.modValve v f).nextFrame = e.nextFrame := rfl
@[simp] theorem Ev.modValve_mode (v : ValveId) (f : ValveLive → ValveLive) : (e.modValve v f).mode = e.mode := rfl
@[simp] theorem Ev.modValve_table (v : ValveId) (f : ValveLive → ValveLive) : (e.modValve v f).table = e.table := rfl
@[simp] theorem Ev.modValve_store (v : ValveId) (f : ValveLive → ValveLive) : (e.modValve v f).store = e.store := rfl
@[simp] theorem Ev.modValve_revision (v : ValveId) (f : ValveLive → ValveLive) : (e.modValve v f).revision = e.revision := rfl
@[simp] theorem Ev.modValve_segLive (v : ValveId) (f : ValveLive → ValveLive) : (e.modValve v f).segLive = e.segLive := rfl
@[simp] theorem Ev.modValve_valveLive (v : ValveId) (f : ValveLive → ValveLive) : (e.modValve v f).valveLive = upd e.valveLive v f := rfl
@[simp] theorem Ev.modValve_feedState (v : ValveId) (f : ValveLive → ValveLive) : (e.modValve v f).feedState = e.feedState := rfl
@[simp] theorem Ev.modValve_stationLive (v : ValveId) (f : ValveLive → ValveLive) : (e.modValve v f).stationLive = e.stationLive := rfl
@[simp] theorem Ev.modValve_poll (v : ValveId) (f : ValveLive → ValveLive) : (e.modValve v f).poll = e.poll := rfl
@[simp] theorem Ev.modValve_tracer (v : ValveId) (f : ValveLive → ValveLive) : (e.modValve v f).tracer = e.tracer := rfl
@[simp] theorem Ev.modValve_calls (v : ValveId) (f : ValveLive → ValveLive) : (e.modValve v f).calls = e.calls := rfl
@[simp] theorem Ev.modValve_planner (v : ValveId) (f : ValveLive → ValveLive) : (e.modValve v f).planner = e.planner := rfl
@[simp] theorem Ev.modValve_switching (v : ValveId) (f : ValveLive → ValveLive) : (e.modValve v f).switching = e.switching := rfl
@[simp] theorem Ev.modValve_outages (v : ValveId) (f : ValveLive → ValveLive) : (e.modValve v f).outages = e.outages := rfl
@[simp] theorem Ev.modValve_alarms (v : ValveId) (f : ValveLive → ValveLive) : (e.modValve v f).alarms = e.alarms := rfl
@[simp] theorem Ev.modValve_ports (v : ValveId) (f : ValveLive → ValveLive) : (e.modValve v f).ports = e.ports := rfl
@[simp] theorem Ev.modValve_bumped (v : ValveId) (f : ValveLive → ValveLive) : (e.modValve v f).bumped = e.bumped := rfl
@[simp] theorem Ev.modValve_trigger (v : ValveId) (f : ValveLive → ValveLive) : (e.modValve v f).trigger = e.trigger := rfl
@[simp] theorem Ev.modValve_completed (v : ValveId) (f : ValveLive → ValveLive) : (e.modValve v f).completed = e.completed := rfl
@[simp] theorem Ev.modValve_retier (v : ValveId) (f : ValveLive → ValveLive) : (e.modValve v f).retier = e.retier := rfl
@[simp] theorem Ev.modValve_resettle (v : ValveId) (f : ValveLive → ValveLive) : (e.modValve v f).resettle = e.resettle := rfl
@[simp] theorem Ev.modValve_freed (v : ValveId) (f : ValveLive → ValveLive) : (e.modValve v f).freed = e.freed := rfl
@[simp] theorem Ev.modValve_wake (v : ValveId) (f : ValveLive → ValveLive) : (e.modValve v f).wake = e.wake := rfl
@[simp] theorem Ev.modValve_unannounced (v : ValveId) (f : ValveLive → ValveLive) : (e.modValve v f).unannounced = e.unannounced := rfl
@[simp] theorem Ev.modValve_alarmLog (v : ValveId) (f : ValveLive → ValveLive) : (e.modValve v f).alarmLog = e.alarmLog := rfl
@[simp] theorem Ev.modValve_incidentLog (v : ValveId) (f : ValveLive → ValveLive) : (e.modValve v f).incidentLog = e.incidentLog := rfl

/-! ## `Ev.modTable` -/

@[simp] theorem Ev.modTable_pending (f : Table → Table) : (e.modTable f).pending = e.pending := rfl
@[simp] theorem Ev.modTable_events (f : Table → Table) : (e.modTable f).events = e.events := rfl
@[simp] theorem Ev.modTable_now (f : Table → Table) : (e.modTable f).now = e.now := rfl
@[simp] theorem Ev.modTable_frameNumber (f : Table → Table) : (e.modTable f).frameNumber = e.frameNumber := rfl
@[simp] theorem Ev.modTable_nextFrame (f : Table → Table) : (e.modTable f).nextFrame = e.nextFrame := rfl
@[simp] theorem Ev.modTable_mode (f : Table → Table) : (e.modTable f).mode = e.mode := rfl
@[simp] theorem Ev.modTable_table (f : Table → Table) : (e.modTable f).table = f e.table := rfl
@[simp] theorem Ev.modTable_store (f : Table → Table) : (e.modTable f).store = e.store := rfl
@[simp] theorem Ev.modTable_revision (f : Table → Table) : (e.modTable f).revision = e.revision := rfl
@[simp] theorem Ev.modTable_segLive (f : Table → Table) : (e.modTable f).segLive = e.segLive := rfl
@[simp] theorem Ev.modTable_valveLive (f : Table → Table) : (e.modTable f).valveLive = e.valveLive := rfl
@[simp] theorem Ev.modTable_feedState (f : Table → Table) : (e.modTable f).feedState = e.feedState := rfl
@[simp] theorem Ev.modTable_stationLive (f : Table → Table) : (e.modTable f).stationLive = e.stationLive := rfl
@[simp] theorem Ev.modTable_poll (f : Table → Table) : (e.modTable f).poll = e.poll := rfl
@[simp] theorem Ev.modTable_tracer (f : Table → Table) : (e.modTable f).tracer = e.tracer := rfl
@[simp] theorem Ev.modTable_calls (f : Table → Table) : (e.modTable f).calls = e.calls := rfl
@[simp] theorem Ev.modTable_planner (f : Table → Table) : (e.modTable f).planner = e.planner := rfl
@[simp] theorem Ev.modTable_switching (f : Table → Table) : (e.modTable f).switching = e.switching := rfl
@[simp] theorem Ev.modTable_outages (f : Table → Table) : (e.modTable f).outages = e.outages := rfl
@[simp] theorem Ev.modTable_alarms (f : Table → Table) : (e.modTable f).alarms = e.alarms := rfl
@[simp] theorem Ev.modTable_ports (f : Table → Table) : (e.modTable f).ports = e.ports := rfl
@[simp] theorem Ev.modTable_bumped (f : Table → Table) : (e.modTable f).bumped = e.bumped := rfl
@[simp] theorem Ev.modTable_trigger (f : Table → Table) : (e.modTable f).trigger = e.trigger := rfl
@[simp] theorem Ev.modTable_completed (f : Table → Table) : (e.modTable f).completed = e.completed := rfl
@[simp] theorem Ev.modTable_retier (f : Table → Table) : (e.modTable f).retier = e.retier := rfl
@[simp] theorem Ev.modTable_resettle (f : Table → Table) : (e.modTable f).resettle = e.resettle := rfl
@[simp] theorem Ev.modTable_freed (f : Table → Table) : (e.modTable f).freed = e.freed := rfl
@[simp] theorem Ev.modTable_wake (f : Table → Table) : (e.modTable f).wake = e.wake := rfl
@[simp] theorem Ev.modTable_unannounced (f : Table → Table) : (e.modTable f).unannounced = e.unannounced := rfl
@[simp] theorem Ev.modTable_alarmLog (f : Table → Table) : (e.modTable f).alarmLog = e.alarmLog := rfl
@[simp] theorem Ev.modTable_incidentLog (f : Table → Table) : (e.modTable f).incidentLog = e.incidentLog := rfl

/-! ## `Ev.modStore` -/

@[simp] theorem Ev.modStore_pending (f : ConfigStore → ConfigStore) : (e.modStore f).pending = e.pending := rfl
@[simp] theorem Ev.modStore_events (f : ConfigStore → ConfigStore) : (e.modStore f).events = e.events := rfl
@[simp] theorem Ev.modStore_now (f : ConfigStore → ConfigStore) : (e.modStore f).now = e.now := rfl
@[simp] theorem Ev.modStore_frameNumber (f : ConfigStore → ConfigStore) : (e.modStore f).frameNumber = e.frameNumber := rfl
@[simp] theorem Ev.modStore_nextFrame (f : ConfigStore → ConfigStore) : (e.modStore f).nextFrame = e.nextFrame := rfl
@[simp] theorem Ev.modStore_mode (f : ConfigStore → ConfigStore) : (e.modStore f).mode = e.mode := rfl
@[simp] theorem Ev.modStore_table (f : ConfigStore → ConfigStore) : (e.modStore f).table = e.table := rfl
@[simp] theorem Ev.modStore_store (f : ConfigStore → ConfigStore) : (e.modStore f).store = f e.store := rfl
@[simp] theorem Ev.modStore_revision (f : ConfigStore → ConfigStore) : (e.modStore f).revision = e.revision := rfl
@[simp] theorem Ev.modStore_segLive (f : ConfigStore → ConfigStore) : (e.modStore f).segLive = e.segLive := rfl
@[simp] theorem Ev.modStore_valveLive (f : ConfigStore → ConfigStore) : (e.modStore f).valveLive = e.valveLive := rfl
@[simp] theorem Ev.modStore_feedState (f : ConfigStore → ConfigStore) : (e.modStore f).feedState = e.feedState := rfl
@[simp] theorem Ev.modStore_stationLive (f : ConfigStore → ConfigStore) : (e.modStore f).stationLive = e.stationLive := rfl
@[simp] theorem Ev.modStore_poll (f : ConfigStore → ConfigStore) : (e.modStore f).poll = e.poll := rfl
@[simp] theorem Ev.modStore_tracer (f : ConfigStore → ConfigStore) : (e.modStore f).tracer = e.tracer := rfl
@[simp] theorem Ev.modStore_calls (f : ConfigStore → ConfigStore) : (e.modStore f).calls = e.calls := rfl
@[simp] theorem Ev.modStore_planner (f : ConfigStore → ConfigStore) : (e.modStore f).planner = e.planner := rfl
@[simp] theorem Ev.modStore_switching (f : ConfigStore → ConfigStore) : (e.modStore f).switching = e.switching := rfl
@[simp] theorem Ev.modStore_outages (f : ConfigStore → ConfigStore) : (e.modStore f).outages = e.outages := rfl
@[simp] theorem Ev.modStore_alarms (f : ConfigStore → ConfigStore) : (e.modStore f).alarms = e.alarms := rfl
@[simp] theorem Ev.modStore_ports (f : ConfigStore → ConfigStore) : (e.modStore f).ports = e.ports := rfl
@[simp] theorem Ev.modStore_bumped (f : ConfigStore → ConfigStore) : (e.modStore f).bumped = e.bumped := rfl
@[simp] theorem Ev.modStore_trigger (f : ConfigStore → ConfigStore) : (e.modStore f).trigger = e.trigger := rfl
@[simp] theorem Ev.modStore_completed (f : ConfigStore → ConfigStore) : (e.modStore f).completed = e.completed := rfl
@[simp] theorem Ev.modStore_retier (f : ConfigStore → ConfigStore) : (e.modStore f).retier = e.retier := rfl
@[simp] theorem Ev.modStore_resettle (f : ConfigStore → ConfigStore) : (e.modStore f).resettle = e.resettle := rfl
@[simp] theorem Ev.modStore_freed (f : ConfigStore → ConfigStore) : (e.modStore f).freed = e.freed := rfl
@[simp] theorem Ev.modStore_wake (f : ConfigStore → ConfigStore) : (e.modStore f).wake = e.wake := rfl
@[simp] theorem Ev.modStore_unannounced (f : ConfigStore → ConfigStore) : (e.modStore f).unannounced = e.unannounced := rfl
@[simp] theorem Ev.modStore_alarmLog (f : ConfigStore → ConfigStore) : (e.modStore f).alarmLog = e.alarmLog := rfl
@[simp] theorem Ev.modStore_incidentLog (f : ConfigStore → ConfigStore) : (e.modStore f).incidentLog = e.incidentLog := rfl

/-! ## `Ev.triggerPass` -/

@[simp] theorem Ev.triggerPass_pending : e.triggerPass.pending = e.pending := rfl
@[simp] theorem Ev.triggerPass_events : e.triggerPass.events = e.events := rfl
@[simp] theorem Ev.triggerPass_now : e.triggerPass.now = e.now := rfl
@[simp] theorem Ev.triggerPass_frameNumber : e.triggerPass.frameNumber = e.frameNumber := rfl
@[simp] theorem Ev.triggerPass_nextFrame : e.triggerPass.nextFrame = e.nextFrame := rfl
@[simp] theorem Ev.triggerPass_mode : e.triggerPass.mode = e.mode := rfl
@[simp] theorem Ev.triggerPass_table : e.triggerPass.table = e.table := rfl
@[simp] theorem Ev.triggerPass_store : e.triggerPass.store = e.store := rfl
@[simp] theorem Ev.triggerPass_revision : e.triggerPass.revision = e.revision := rfl
@[simp] theorem Ev.triggerPass_segLive : e.triggerPass.segLive = e.segLive := rfl
@[simp] theorem Ev.triggerPass_valveLive : e.triggerPass.valveLive = e.valveLive := rfl
@[simp] theorem Ev.triggerPass_feedState : e.triggerPass.feedState = e.feedState := rfl
@[simp] theorem Ev.triggerPass_stationLive : e.triggerPass.stationLive = e.stationLive := rfl
@[simp] theorem Ev.triggerPass_poll : e.triggerPass.poll = e.poll := rfl
@[simp] theorem Ev.triggerPass_tracer : e.triggerPass.tracer = e.tracer := rfl
@[simp] theorem Ev.triggerPass_calls : e.triggerPass.calls = e.calls := rfl
@[simp] theorem Ev.triggerPass_planner : e.triggerPass.planner = e.planner := rfl
@[simp] theorem Ev.triggerPass_switching : e.triggerPass.switching = e.switching := rfl
@[simp] theorem Ev.triggerPass_outages : e.triggerPass.outages = e.outages := rfl
@[simp] theorem Ev.triggerPass_alarms : e.triggerPass.alarms = e.alarms := rfl
@[simp] theorem Ev.triggerPass_ports : e.triggerPass.ports = e.ports := rfl
@[simp] theorem Ev.triggerPass_bumped : e.triggerPass.bumped = e.bumped := rfl
@[simp] theorem Ev.triggerPass_trigger : e.triggerPass.trigger = true := rfl
@[simp] theorem Ev.triggerPass_completed : e.triggerPass.completed = e.completed := rfl
@[simp] theorem Ev.triggerPass_retier : e.triggerPass.retier = e.retier := rfl
@[simp] theorem Ev.triggerPass_resettle : e.triggerPass.resettle = e.resettle := rfl
@[simp] theorem Ev.triggerPass_freed : e.triggerPass.freed = e.freed := rfl
@[simp] theorem Ev.triggerPass_wake : e.triggerPass.wake = e.wake := rfl
@[simp] theorem Ev.triggerPass_unannounced : e.triggerPass.unannounced = e.unannounced := rfl
@[simp] theorem Ev.triggerPass_alarmLog : e.triggerPass.alarmLog = e.alarmLog := rfl
@[simp] theorem Ev.triggerPass_incidentLog : e.triggerPass.incidentLog = e.incidentLog := rfl

/-! ## `Ev.markTiers` -/

@[simp] theorem Ev.markTiers_pending : e.markTiers.pending = e.pending := rfl
@[simp] theorem Ev.markTiers_events : e.markTiers.events = e.events := rfl
@[simp] theorem Ev.markTiers_now : e.markTiers.now = e.now := rfl
@[simp] theorem Ev.markTiers_frameNumber : e.markTiers.frameNumber = e.frameNumber := rfl
@[simp] theorem Ev.markTiers_nextFrame : e.markTiers.nextFrame = e.nextFrame := rfl
@[simp] theorem Ev.markTiers_mode : e.markTiers.mode = e.mode := rfl
@[simp] theorem Ev.markTiers_table : e.markTiers.table = e.table := rfl
@[simp] theorem Ev.markTiers_store : e.markTiers.store = e.store := rfl
@[simp] theorem Ev.markTiers_revision : e.markTiers.revision = e.revision := rfl
@[simp] theorem Ev.markTiers_segLive : e.markTiers.segLive = e.segLive := rfl
@[simp] theorem Ev.markTiers_valveLive : e.markTiers.valveLive = e.valveLive := rfl
@[simp] theorem Ev.markTiers_feedState : e.markTiers.feedState = e.feedState := rfl
@[simp] theorem Ev.markTiers_stationLive : e.markTiers.stationLive = e.stationLive := rfl
@[simp] theorem Ev.markTiers_poll : e.markTiers.poll = e.poll := rfl
@[simp] theorem Ev.markTiers_tracer : e.markTiers.tracer = e.tracer := rfl
@[simp] theorem Ev.markTiers_calls : e.markTiers.calls = e.calls := rfl
@[simp] theorem Ev.markTiers_planner : e.markTiers.planner = e.planner := rfl
@[simp] theorem Ev.markTiers_switching : e.markTiers.switching = e.switching := rfl
@[simp] theorem Ev.markTiers_outages : e.markTiers.outages = e.outages := rfl
@[simp] theorem Ev.markTiers_alarms : e.markTiers.alarms = e.alarms := rfl
@[simp] theorem Ev.markTiers_ports : e.markTiers.ports = e.ports := rfl
@[simp] theorem Ev.markTiers_bumped : e.markTiers.bumped = e.bumped := rfl
@[simp] theorem Ev.markTiers_trigger : e.markTiers.trigger = e.trigger := rfl
@[simp] theorem Ev.markTiers_completed : e.markTiers.completed = e.completed := rfl
@[simp] theorem Ev.markTiers_retier : e.markTiers.retier = true := rfl
@[simp] theorem Ev.markTiers_resettle : e.markTiers.resettle = e.resettle := rfl
@[simp] theorem Ev.markTiers_freed : e.markTiers.freed = e.freed := rfl
@[simp] theorem Ev.markTiers_wake : e.markTiers.wake = e.wake := rfl
@[simp] theorem Ev.markTiers_unannounced : e.markTiers.unannounced = e.unannounced := rfl
@[simp] theorem Ev.markTiers_alarmLog : e.markTiers.alarmLog = e.alarmLog := rfl
@[simp] theorem Ev.markTiers_incidentLog : e.markTiers.incidentLog = e.incidentLog := rfl

/-! ## `Ev.markSettle` -/

@[simp] theorem Ev.markSettle_pending : e.markSettle.pending = e.pending := rfl
@[simp] theorem Ev.markSettle_events : e.markSettle.events = e.events := rfl
@[simp] theorem Ev.markSettle_now : e.markSettle.now = e.now := rfl
@[simp] theorem Ev.markSettle_frameNumber : e.markSettle.frameNumber = e.frameNumber := rfl
@[simp] theorem Ev.markSettle_nextFrame : e.markSettle.nextFrame = e.nextFrame := rfl
@[simp] theorem Ev.markSettle_mode : e.markSettle.mode = e.mode := rfl
@[simp] theorem Ev.markSettle_table : e.markSettle.table = e.table := rfl
@[simp] theorem Ev.markSettle_store : e.markSettle.store = e.store := rfl
@[simp] theorem Ev.markSettle_revision : e.markSettle.revision = e.revision := rfl
@[simp] theorem Ev.markSettle_segLive : e.markSettle.segLive = e.segLive := rfl
@[simp] theorem Ev.markSettle_valveLive : e.markSettle.valveLive = e.valveLive := rfl
@[simp] theorem Ev.markSettle_feedState : e.markSettle.feedState = e.feedState := rfl
@[simp] theorem Ev.markSettle_stationLive : e.markSettle.stationLive = e.stationLive := rfl
@[simp] theorem Ev.markSettle_poll : e.markSettle.poll = e.poll := rfl
@[simp] theorem Ev.markSettle_tracer : e.markSettle.tracer = e.tracer := rfl
@[simp] theorem Ev.markSettle_calls : e.markSettle.calls = e.calls := rfl
@[simp] theorem Ev.markSettle_planner : e.markSettle.planner = e.planner := rfl
@[simp] theorem Ev.markSettle_switching : e.markSettle.switching = e.switching := rfl
@[simp] theorem Ev.markSettle_outages : e.markSettle.outages = e.outages := rfl
@[simp] theorem Ev.markSettle_alarms : e.markSettle.alarms = e.alarms := rfl
@[simp] theorem Ev.markSettle_ports : e.markSettle.ports = e.ports := rfl
@[simp] theorem Ev.markSettle_bumped : e.markSettle.bumped = e.bumped := rfl
@[simp] theorem Ev.markSettle_trigger : e.markSettle.trigger = e.trigger := rfl
@[simp] theorem Ev.markSettle_completed : e.markSettle.completed = e.completed := rfl
@[simp] theorem Ev.markSettle_retier : e.markSettle.retier = e.retier := rfl
@[simp] theorem Ev.markSettle_resettle : e.markSettle.resettle = true := rfl
@[simp] theorem Ev.markSettle_freed : e.markSettle.freed = e.freed := rfl
@[simp] theorem Ev.markSettle_wake : e.markSettle.wake = e.wake := rfl
@[simp] theorem Ev.markSettle_unannounced : e.markSettle.unannounced = e.unannounced := rfl
@[simp] theorem Ev.markSettle_alarmLog : e.markSettle.alarmLog = e.alarmLog := rfl
@[simp] theorem Ev.markSettle_incidentLog : e.markSettle.incidentLog = e.incidentLog := rfl

/-! ## `Ev.toAnnounce` -/

@[simp] theorem Ev.toAnnounce_pending (n : Nat) : (e.toAnnounce n).pending = e.pending := rfl
@[simp] theorem Ev.toAnnounce_events (n : Nat) : (e.toAnnounce n).events = e.events := rfl
@[simp] theorem Ev.toAnnounce_now (n : Nat) : (e.toAnnounce n).now = e.now := rfl
@[simp] theorem Ev.toAnnounce_frameNumber (n : Nat) : (e.toAnnounce n).frameNumber = e.frameNumber := rfl
@[simp] theorem Ev.toAnnounce_nextFrame (n : Nat) : (e.toAnnounce n).nextFrame = e.nextFrame := rfl
@[simp] theorem Ev.toAnnounce_mode (n : Nat) : (e.toAnnounce n).mode = e.mode := rfl
@[simp] theorem Ev.toAnnounce_table (n : Nat) : (e.toAnnounce n).table = e.table := rfl
@[simp] theorem Ev.toAnnounce_store (n : Nat) : (e.toAnnounce n).store = e.store := rfl
@[simp] theorem Ev.toAnnounce_revision (n : Nat) : (e.toAnnounce n).revision = e.revision := rfl
@[simp] theorem Ev.toAnnounce_segLive (n : Nat) : (e.toAnnounce n).segLive = e.segLive := rfl
@[simp] theorem Ev.toAnnounce_valveLive (n : Nat) : (e.toAnnounce n).valveLive = e.valveLive := rfl
@[simp] theorem Ev.toAnnounce_feedState (n : Nat) : (e.toAnnounce n).feedState = e.feedState := rfl
@[simp] theorem Ev.toAnnounce_stationLive (n : Nat) : (e.toAnnounce n).stationLive = e.stationLive := rfl
@[simp] theorem Ev.toAnnounce_poll (n : Nat) : (e.toAnnounce n).poll = e.poll := rfl
@[simp] theorem Ev.toAnnounce_tracer (n : Nat) : (e.toAnnounce n).tracer = e.tracer := rfl
@[simp] theorem Ev.toAnnounce_calls (n : Nat) : (e.toAnnounce n).calls = e.calls := rfl
@[simp] theorem Ev.toAnnounce_planner (n : Nat) : (e.toAnnounce n).planner = e.planner := rfl
@[simp] theorem Ev.toAnnounce_switching (n : Nat) : (e.toAnnounce n).switching = e.switching := rfl
@[simp] theorem Ev.toAnnounce_outages (n : Nat) : (e.toAnnounce n).outages = e.outages := rfl
@[simp] theorem Ev.toAnnounce_alarms (n : Nat) : (e.toAnnounce n).alarms = e.alarms := rfl
@[simp] theorem Ev.toAnnounce_ports (n : Nat) : (e.toAnnounce n).ports = e.ports := rfl
@[simp] theorem Ev.toAnnounce_bumped (n : Nat) : (e.toAnnounce n).bumped = e.bumped := rfl
@[simp] theorem Ev.toAnnounce_trigger (n : Nat) : (e.toAnnounce n).trigger = e.trigger := rfl
@[simp] theorem Ev.toAnnounce_completed (n : Nat) : (e.toAnnounce n).completed = e.completed := rfl
@[simp] theorem Ev.toAnnounce_retier (n : Nat) : (e.toAnnounce n).retier = e.retier := rfl
@[simp] theorem Ev.toAnnounce_resettle (n : Nat) : (e.toAnnounce n).resettle = e.resettle := rfl
@[simp] theorem Ev.toAnnounce_freed (n : Nat) : (e.toAnnounce n).freed = e.freed := rfl
@[simp] theorem Ev.toAnnounce_wake (n : Nat) : (e.toAnnounce n).wake = e.wake := rfl
@[simp] theorem Ev.toAnnounce_unannounced (n : Nat) : (e.toAnnounce n).unannounced = e.unannounced ++ [n] := rfl
@[simp] theorem Ev.toAnnounce_alarmLog (n : Nat) : (e.toAnnounce n).alarmLog = e.alarmLog := rfl
@[simp] theorem Ev.toAnnounce_incidentLog (n : Nat) : (e.toAnnounce n).incidentLog = e.incidentLog := rfl

/-! ## `Ev.announced` -/

@[simp] theorem Ev.announced_pending (n : Nat) : (e.announced n).pending = e.pending := rfl
@[simp] theorem Ev.announced_events (n : Nat) : (e.announced n).events = e.events := rfl
@[simp] theorem Ev.announced_now (n : Nat) : (e.announced n).now = e.now := rfl
@[simp] theorem Ev.announced_frameNumber (n : Nat) : (e.announced n).frameNumber = e.frameNumber := rfl
@[simp] theorem Ev.announced_nextFrame (n : Nat) : (e.announced n).nextFrame = e.nextFrame := rfl
@[simp] theorem Ev.announced_mode (n : Nat) : (e.announced n).mode = e.mode := rfl
@[simp] theorem Ev.announced_table (n : Nat) : (e.announced n).table = e.table := rfl
@[simp] theorem Ev.announced_store (n : Nat) : (e.announced n).store = e.store := rfl
@[simp] theorem Ev.announced_revision (n : Nat) : (e.announced n).revision = e.revision := rfl
@[simp] theorem Ev.announced_segLive (n : Nat) : (e.announced n).segLive = e.segLive := rfl
@[simp] theorem Ev.announced_valveLive (n : Nat) : (e.announced n).valveLive = e.valveLive := rfl
@[simp] theorem Ev.announced_feedState (n : Nat) : (e.announced n).feedState = e.feedState := rfl
@[simp] theorem Ev.announced_stationLive (n : Nat) : (e.announced n).stationLive = e.stationLive := rfl
@[simp] theorem Ev.announced_poll (n : Nat) : (e.announced n).poll = e.poll := rfl
@[simp] theorem Ev.announced_tracer (n : Nat) : (e.announced n).tracer = e.tracer := rfl
@[simp] theorem Ev.announced_calls (n : Nat) : (e.announced n).calls = e.calls := rfl
@[simp] theorem Ev.announced_planner (n : Nat) : (e.announced n).planner = e.planner := rfl
@[simp] theorem Ev.announced_switching (n : Nat) : (e.announced n).switching = e.switching := rfl
@[simp] theorem Ev.announced_outages (n : Nat) : (e.announced n).outages = e.outages := rfl
@[simp] theorem Ev.announced_alarms (n : Nat) : (e.announced n).alarms = e.alarms := rfl
@[simp] theorem Ev.announced_ports (n : Nat) : (e.announced n).ports = e.ports := rfl
@[simp] theorem Ev.announced_bumped (n : Nat) : (e.announced n).bumped = e.bumped := rfl
@[simp] theorem Ev.announced_trigger (n : Nat) : (e.announced n).trigger = e.trigger := rfl
@[simp] theorem Ev.announced_completed (n : Nat) : (e.announced n).completed = e.completed := rfl
@[simp] theorem Ev.announced_retier (n : Nat) : (e.announced n).retier = e.retier := rfl
@[simp] theorem Ev.announced_resettle (n : Nat) : (e.announced n).resettle = e.resettle := rfl
@[simp] theorem Ev.announced_freed (n : Nat) : (e.announced n).freed = e.freed := rfl
@[simp] theorem Ev.announced_wake (n : Nat) : (e.announced n).wake = e.wake := rfl
@[simp] theorem Ev.announced_unannounced (n : Nat) : (e.announced n).unannounced = e.unannounced.filter (fun k => k != n) := rfl
@[simp] theorem Ev.announced_alarmLog (n : Nat) : (e.announced n).alarmLog = e.alarmLog := rfl
@[simp] theorem Ev.announced_incidentLog (n : Nat) : (e.announced n).incidentLog = e.incidentLog := rfl

/-! ## `State.begin` and `State.modPort` -/

@[simp] theorem State.begin_pending : s.begin.pending = s.pending := rfl
@[simp] theorem State.begin_events : s.begin.events = s.events + 1 := rfl
@[simp] theorem State.begin_now : s.begin.now = s.now := rfl
@[simp] theorem State.begin_frameNumber : s.begin.frameNumber = s.frameNumber := rfl
@[simp] theorem State.begin_nextFrame : s.begin.nextFrame = s.nextFrame := rfl
@[simp] theorem State.begin_mode : s.begin.mode = s.mode := rfl
@[simp] theorem State.begin_table : s.begin.table = s.table := rfl
@[simp] theorem State.begin_store : s.begin.store = s.store := rfl
@[simp] theorem State.begin_revision : s.begin.revision = s.revision := rfl
@[simp] theorem State.begin_segLive : s.begin.segLive = s.segLive := rfl
@[simp] theorem State.begin_valveLive : s.begin.valveLive = s.valveLive := rfl
@[simp] theorem State.begin_feedState : s.begin.feedState = s.feedState := rfl
@[simp] theorem State.begin_stationLive : s.begin.stationLive = s.stationLive := rfl
@[simp] theorem State.begin_poll : s.begin.poll = s.poll := rfl
@[simp] theorem State.begin_tracer : s.begin.tracer = s.tracer := rfl
@[simp] theorem State.begin_calls : s.begin.calls = s.calls := rfl
@[simp] theorem State.begin_planner : s.begin.planner = s.planner := rfl
@[simp] theorem State.begin_switching : s.begin.switching = s.switching := rfl
@[simp] theorem State.begin_outages : s.begin.outages = s.outages := rfl
@[simp] theorem State.begin_alarms : s.begin.alarms = s.alarms := rfl
@[simp] theorem State.begin_ports : s.begin.ports = s.ports := rfl
@[simp] theorem State.begin_bumped : s.begin.bumped = false := rfl
@[simp] theorem State.begin_trigger : s.begin.trigger = false := rfl
@[simp] theorem State.begin_completed : s.begin.completed = none := rfl
@[simp] theorem State.begin_retier : s.begin.retier = false := rfl
@[simp] theorem State.begin_resettle : s.begin.resettle = false := rfl
@[simp] theorem State.begin_freed : s.begin.freed = false := rfl
@[simp] theorem State.begin_wake : s.begin.wake = false := rfl
@[simp] theorem State.begin_unannounced : s.begin.unannounced = [] := rfl
@[simp] theorem State.begin_alarmLog : s.begin.alarmLog = [] := rfl
@[simp] theorem State.begin_incidentLog : s.begin.incidentLog = [] := rfl
@[simp] theorem State.modPort_pending (p : Port) (f : LinkPort → LinkPort) : (s.modPort p f).pending = s.pending := rfl
@[simp] theorem State.modPort_events (p : Port) (f : LinkPort → LinkPort) : (s.modPort p f).events = s.events := rfl
@[simp] theorem State.modPort_now (p : Port) (f : LinkPort → LinkPort) : (s.modPort p f).now = s.now := rfl
@[simp] theorem State.modPort_frameNumber (p : Port) (f : LinkPort → LinkPort) : (s.modPort p f).frameNumber = s.frameNumber := rfl
@[simp] theorem State.modPort_nextFrame (p : Port) (f : LinkPort → LinkPort) : (s.modPort p f).nextFrame = s.nextFrame := rfl
@[simp] theorem State.modPort_mode (p : Port) (f : LinkPort → LinkPort) : (s.modPort p f).mode = s.mode := rfl
@[simp] theorem State.modPort_table (p : Port) (f : LinkPort → LinkPort) : (s.modPort p f).table = s.table := rfl
@[simp] theorem State.modPort_store (p : Port) (f : LinkPort → LinkPort) : (s.modPort p f).store = s.store := rfl
@[simp] theorem State.modPort_revision (p : Port) (f : LinkPort → LinkPort) : (s.modPort p f).revision = s.revision := rfl
@[simp] theorem State.modPort_segLive (p : Port) (f : LinkPort → LinkPort) : (s.modPort p f).segLive = s.segLive := rfl
@[simp] theorem State.modPort_valveLive (p : Port) (f : LinkPort → LinkPort) : (s.modPort p f).valveLive = s.valveLive := rfl
@[simp] theorem State.modPort_feedState (p : Port) (f : LinkPort → LinkPort) : (s.modPort p f).feedState = s.feedState := rfl
@[simp] theorem State.modPort_stationLive (p : Port) (f : LinkPort → LinkPort) : (s.modPort p f).stationLive = s.stationLive := rfl
@[simp] theorem State.modPort_poll (p : Port) (f : LinkPort → LinkPort) : (s.modPort p f).poll = s.poll := rfl
@[simp] theorem State.modPort_tracer (p : Port) (f : LinkPort → LinkPort) : (s.modPort p f).tracer = s.tracer := rfl
@[simp] theorem State.modPort_calls (p : Port) (f : LinkPort → LinkPort) : (s.modPort p f).calls = s.calls := rfl
@[simp] theorem State.modPort_planner (p : Port) (f : LinkPort → LinkPort) : (s.modPort p f).planner = s.planner := rfl
@[simp] theorem State.modPort_switching (p : Port) (f : LinkPort → LinkPort) : (s.modPort p f).switching = s.switching := rfl
@[simp] theorem State.modPort_outages (p : Port) (f : LinkPort → LinkPort) : (s.modPort p f).outages = s.outages := rfl
@[simp] theorem State.modPort_alarms (p : Port) (f : LinkPort → LinkPort) : (s.modPort p f).alarms = s.alarms := rfl
@[simp] theorem State.modPort_ports (p : Port) (f : LinkPort → LinkPort) : (s.modPort p f).ports = upd s.ports p f := rfl

end Sys2Proof.Machine
end

