-- ==== Sys2Proof/Laws/Answer.lean ====
section
/-! SUPPORT. A request on a port that is ready for it: the one event its block makes, in the words of `State.heard`,
`State.atBlock` and `State.answered`. -/

namespace Sys2Proof.Machine

/-! ## Tables -/

theorem upd_upd {α : Type} {n : Nat} (xs : Vector α n) (i : Fin n) (f g : α → α) :
    upd (upd xs i f) i g = upd xs i (fun x => g (f x)) := by
  simp [upd]

/-! ## Ports -/

@[simp] theorem Ev.portResetState (e : Ev) (p : Port) : (e.portReset p).ports = upd e.ports p LinkPort.cleared := rfl

theorem Ev.reply_eq (e : Ev) (q : Sender) (c : ReplyCode) (r : List Byte) :
    e.reply q c r = e.modPort q.port (fun l => l.reply (replyBody q.seq q.kind c r)) := rfl

theorem Ev.ok_eq (e : Ev) (q : Sender) : e.ok q = e.reply q .ok [] := rfl
theorem Ev.refuse_eq (e : Ev) (q : Sender) (c : ReplyCode) : e.refuse q c = e.reply q c [] := rfl

/-! ## The end of an event that has nothing more to do -/

/-- Nothing is left for the end of the event. -/
structure Ev.Quiet (e : Ev) : Prop where
  trigger : e.trigger = false
  completed : e.completed = none
  retier : e.retier = false
  resettle : e.resettle = false
  freed : e.freed = false
  wake : e.wake = false
  alarmLog : e.alarmLog = []
  incidentLog : e.incidentLog = []

theorem State.begin_quiet (s : State) : s.begin.Quiet := ⟨rfl, rfl, rfl, rfl, rfl, rfl, rfl, rfl⟩

theorem Ev.settleTracer_quiet {e : Ev} (h : e.Quiet) : e.settleTracer = e := by
  unfold Ev.settleTracer
  rw [h.completed, h.trigger, h.wake]
  cases he : e.tracer.engine <;> simp

theorem Ev.finish_quiet {e : Ev} (h : e.Quiet) : e.finish = e.toState := by
  have h1 : e.settleSwitching = e := by rw [Ev.settleSwitching, h.resettle]; rfl
  have h2 : e.settlePlanner = e := by rw [Ev.settlePlanner, h.wake]; rfl
  have h3 : e.settleTiers = e := by rw [Ev.settleTiers, h.retier]; rfl
  have h4 : e.sendIncidentNotices = e := by rw [Ev.sendIncidentNotices, h.incidentLog]; rfl
  have h5 : e.sendAlarmNotices = e := by rw [Ev.sendAlarmNotices, h.alarmLog]; rfl
  have h6 : e.serveResyncs = e := by rw [Ev.serveResyncs, h.freed]; rfl
  rw [Ev.finish, h1, h2, h3, settleTracer_quiet h, h4, h5, h6]

/-- Nothing is left for the end of the event but a pass that may be triggered. -/
structure Ev.QuietButPass (e : Ev) : Prop where
  completed : e.completed = none
  retier : e.retier = false
  resettle : e.resettle = false
  freed : e.freed = false
  wake : e.wake = false
  alarmLog : e.alarmLog = []
  incidentLog : e.incidentLog = []

theorem Ev.settleTracer_logs (e : Ev) : e.settleTracer.alarmLog = e.alarmLog ∧ e.settleTracer.incidentLog = e.incidentLog ∧
    e.settleTracer.freed = e.freed := by
  unfold Ev.settleTracer Ev.nextWork
  repeat' split
  all_goals exact ⟨rfl, rfl, rfl⟩

theorem Ev.finish_pass {e : Ev} (h : e.QuietButPass) : e.finish = e.settleTracer.toState := by
  have h1 : e.settleSwitching = e := by rw [Ev.settleSwitching, h.resettle]; rfl
  have h2 : e.settlePlanner = e := by rw [Ev.settlePlanner, h.wake]; rfl
  have h3 : e.settleTiers = e := by rw [Ev.settleTiers, h.retier]; rfl
  obtain ⟨k1, k2, k3⟩ := e.settleTracer_logs
  have h4 : e.settleTracer.sendIncidentNotices = e.settleTracer := by
    rw [Ev.sendIncidentNotices, k2, h.incidentLog]; rfl
  have h5 : e.settleTracer.sendAlarmNotices = e.settleTracer := by rw [Ev.sendAlarmNotices, k1, h.alarmLog]; rfl
  have h6 : e.settleTracer.serveResyncs = e.settleTracer := by rw [Ev.serveResyncs, k3, h.freed]; rfl
  rw [Ev.finish, h1, h2, h3, h4, h5, h6]

/-- What a triggered pass does to the tracer at the end of an event that completes none (R63). -/
theorem Ev.settleTracer_triggered {e : Ev} (hc : e.completed = none) (ht : e.trigger = true) :
    e.settleTracer.toState = { e.toState with tracer := { e.tracer with
      engine := if e.tracer.engine = .idle then .publishing e.snapshot else e.tracer.engine
      rerun := decide (e.tracer.engine ≠ .idle) } } := by
  unfold Ev.settleTracer
  rw [hc, ht]
  cases he : e.tracer.engine <;> simp [he, Ev.startPublished, Ev.modTracer]

/-! ## A request on a port that is ready -/

theorem State.ready_iff (s : State) (p : Port) (kind : Byte) :
    s.ready p kind = true ↔ s.ports[p].state = .up ∧ s.ports[p].role.permits kind = true ∧ s.ports[p].hasRoom = true := by
  simp [State.ready, and_assoc]

theorem Role.permits_unused (kind : Byte) : Role.unused.permits kind = false := rfl

theorem heard_event (s : State) (p : Port) (h : s.ports[p].state = .up) :
    event (fun e => e.frameSeen p) s = s.heard p := by
  have e1 : s.begin.frameSeen p = (s.begin.modPort p (fun l => { l with
      validCount := satInc 65535 l.validCount, state := .up })).armLiveness p := by
    unfold Ev.frameSeen
    simp only [State.begin_ports, h]
  rw [event, e1, Ev.finish_quiet ⟨rfl, rfl, rfl, rfl, rfl, rfl, rfl, rfl⟩]
  unfold Ev.armLiveness Ev.modPort State.heard State.begin
  simp only [upd_upd]
  congr 1
  unfold upd
  simp only [h, Ev.after]

theorem heard_port (s : State) (p : Port) :
    (s.heard p).ports[p] = { s.ports[p] with
      validCount := satInc 65535 s.ports[p].validCount
      liveness := some (s.now + BitVec.ofNat 32 (s.table.params.silence * 1000)) } := upd_self _ _ _

/-- A frame on a port that is UP with a free entry: the block's one event. -/
theorem takeFrame_ready (q : Sender) (block : Ev → Ev) (s : State) (h : s.ready q.port q.kind = true) :
    takeFrame q none block s = (block (s.atBlock q.port)).finish := by
  obtain ⟨hu, hp, hr⟩ := (s.ready_iff q.port q.kind).1 h
  have hrole : s.ports[q.port].role ≠ .unused := fun k => by rw [k, Role.permits_unused] at hp; cases hp
  unfold takeFrame
  rw [if_neg hrole, heard_event s q.port hu, event]
  unfold Ev.offer
  have hroom : (s.heard q.port).begin.ports[q.port].hasRoom = true := by
    rw [State.begin_ports, heard_port]; exact hr
  have hperm : ((s.heard q.port).begin.holdEntry q.port).ports[q.port].role.permits q.kind = true := by
    rw [Ev.holdEntry, Ev.modPort_ports, upd_self, State.begin_ports, heard_port]; exact hp
  rw [if_pos hroom]
  dsimp only
  rw [if_pos hperm]
  rfl

theorem request_ready (p : Port) (seq kind : Byte) (block : Sender → Ev → Ev) (s : State) (h : s.ready p kind = true) :
    request p seq kind block s = (block ⟨p, seq, kind⟩ (s.atBlock p)).finish :=
  takeFrame_ready ⟨p, seq, kind⟩ _ s h

/-- The event of a request as its block begins has nothing to do at its end yet. -/
theorem State.atBlock_quiet (s : State) (p : Port) : (s.atBlock p).Quiet := ⟨rfl, rfl, rfl, rfl, rfl, rfl, rfl, rfl⟩

/-- A reply leaves the end of the event as it was. -/
theorem Ev.Quiet.reply {e : Ev} (h : e.Quiet) (q : Sender) (c : ReplyCode) (r : List Byte) : (e.reply q c r).Quiet :=
  ⟨h.trigger, h.completed, h.retier, h.resettle, h.freed, h.wake, h.alarmLog, h.incidentLog⟩

/-- A request whose block only replies. -/
theorem answered_eq (s : State) (q : Sender) (c : ReplyCode) (r : List Byte) :
    ((s.atBlock q.port).reply q c r).finish = s.answered q c r := by
  rw [Ev.finish_quiet ((s.atBlock_quiet _).reply _ _ _)]
  unfold State.atBlock State.answered Ev.reply Ev.holdEntry Ev.modPort
  simp only [upd_upd]
  rfl

theorem heard_quiet_mode (s : State) (p : Port) : (s.atBlock p).mode = s.mode := rfl

end Sys2Proof.Machine
end

