-- ==== Sys2Proof/Laws/PerInstr.lean ====
section
/-! SUPPORT. For each command: the body that encodes a well-formed request decodes to that request. -/

namespace Sys2Proof

theorem half_halfBytes (w : Half) : half (w.extractLsb' 8 8) (w.extractLsb' 0 8) = w := by
  unfold half
  ext i hi
  simp only [BitVec.getElem_append, BitVec.getElem_extractLsb', Nat.zero_add]
  split
  · exact BitVec.getLsbD_eq_getElem hi
  · rw [show 8 + (i - 8) = i by omega]
    exact BitVec.getLsbD_eq_getElem hi

theorem word_wordBytes (w : Word) :
    word (w.extractLsb' 24 8) (w.extractLsb' 16 8) (w.extractLsb' 8 8) (w.extractLsb' 0 8) = w := by
  unfold word
  ext i hi
  simp only [BitVec.getElem_append, BitVec.getElem_extractLsb', Nat.zero_add]
  have h8 : ¬i < 8 → 8 + (i - 8) = i := by omega
  have h16 : ¬i - 8 < 8 → 16 + (i - 8 - 8) = i := by omega
  have h24 : ¬i - 8 - 8 < 8 → 24 + (i - 8 - 8 - 8) = i := by omega
  split
  · exact BitVec.getLsbD_eq_getElem hi
  · split
    · rw [h8 ‹_›]; exact BitVec.getLsbD_eq_getElem hi
    · split
      · rw [h16 ‹_›]; exact BitVec.getLsbD_eq_getElem hi
      · rw [h24 ‹_›]; exact BitVec.getLsbD_eq_getElem hi

/-! ## What each reader of a field gives back -/

@[simp] theorem b1_cons (k : Byte → Reader) (a : Byte) (rest : List Byte) : b1 k (a :: rest) = k a rest := rfl
@[simp] theorem b2_append (k : Half → Reader) (w : Half) (rest : List Byte) : b2 k (halfBytes w ++ rest) = k w rest := by
  show k (half _ _) rest = _
  rw [half_halfBytes]
@[simp] theorem b2_all (k : Half → Reader) (w : Half) : b2 k (halfBytes w) = k w [] := by
  rw [← b2_append k w [], List.append_nil]
@[simp] theorem b4_append (k : Word → Reader) (w : Word) (rest : List Byte) : b4 k (wordBytes w ++ rest) = k w rest := by
  show k (word _ _ _ _) rest = _
  rw [word_wordBytes]
@[simp] theorem b4_all (k : Word → Reader) (w : Word) : b4 k (wordBytes w) = k w [] := by
  rw [← b4_append k w [], List.append_nil]
@[simp] theorem done_nil (i : Instr) : done i [] = some i := rfl

namespace Laws.RequestBody

-- Every lemma here waits for the same unfolding lemmas: elaborated at once they take a thread each.
set_option Elab.async false

/-- The body of a well-formed request decodes, on its port, to the request. -/
def Statement (i : Instr) : Prop := i.wf = true → ∀ b, i.body = some b → decodeBody i.port b = .ok i

theorem deviceReset x0 : Statement (.deviceReset x0) := fun _ _ hb => nomatch hb

theorem receiveByte x0 x1 : Statement (.receiveByte x0 x1) := fun _ _ hb => nomatch hb

theorem gapDeadlineExpiry x0 : Statement (.gapDeadlineExpiry x0) := fun _ _ hb => nomatch hb

theorem livenessDeadlineExpiry x0 : Statement (.livenessDeadlineExpiry x0) := fun _ _ hb => nomatch hb

theorem queueEntryFreed x0 : Statement (.queueEntryFreed x0) := fun _ _ hb => nomatch hb

theorem linkReset x0 x1 : Statement (.linkReset x0 x1) := by
  intro _ b hb
  cases hb
  simp [decodeBody, requestReader, readBody, Instr.port]

theorem reading x0 x1 x2 x3 x4 : Statement (.reading x0 x1 x2 x3 x4) := by
  intro _ b hb
  cases hb
  simp [decodeBody, requestReader, readBody, Instr.port]

theorem stalenessDeadlineExpiry x0 : Statement (.stalenessDeadlineExpiry x0) := fun _ _ hb => nomatch hb

theorem valveReport x0 x1 x2 x3 x4 : Statement (.valveReport x0 x1 x2 x3 x4) := by
  intro _ b hb
  cases hb
  simp [decodeBody, requestReader, readBody, Instr.port]

theorem crewValveReport x0 x1 x2 x3 x4 : Statement (.crewValveReport x0 x1 x2 x3 x4) := by
  intro _ b hb
  cases hb
  simp [decodeBody, requestReader, readBody, Instr.port]

theorem orderAccept x0 x1 x2 x3 : Statement (.orderAccept x0 x1 x2 x3) := by
  intro _ b hb
  cases hb
  simp [decodeBody, requestReader, readBody, Instr.port]

theorem orderDone x0 x1 x2 x3 x4 : Statement (.orderDone x0 x1 x2 x3 x4) := by
  intro _ b hb
  cases hb
  simp [decodeBody, requestReader, readBody, Instr.port]

theorem orderFail x0 x1 x2 x3 x4 : Statement (.orderFail x0 x1 x2 x3 x4) := by
  intro _ b hb
  cases hb
  simp [decodeBody, requestReader, readBody, Instr.port]

theorem acceptDeadlineExpiry x0 : Statement (.acceptDeadlineExpiry x0) := fun _ _ hb => nomatch hb

theorem travelDeadlineExpiry x0 : Statement (.travelDeadlineExpiry x0) := fun _ _ hb => nomatch hb

theorem crewDone x0 x1 x2 x3 x4 : Statement (.crewDone x0 x1 x2 x3 x4) := by
  intro _ b hb
  cases hb
  simp [decodeBody, requestReader, readBody, Instr.port]

theorem crewFail x0 x1 x2 x3 x4 : Statement (.crewFail x0 x1 x2 x3 x4) := by
  intro _ b hb
  cases hb
  simp [decodeBody, requestReader, readBody, Instr.port]

theorem crewTaskDeadlineExpiry x0 : Statement (.crewTaskDeadlineExpiry x0) := fun _ _ hb => nomatch hb

theorem call x0 x1 x2 x3 x4 x5 : Statement (.call x0 x1 x2 x3 x4 x5) := by
  intro _ b hb
  cases hb
  simp [decodeBody, requestReader, readBody, Instr.port]

theorem callUpdate x0 x1 x2 x3 : Statement (.callUpdate x0 x1 x2 x3) := by
  intro _ b hb
  cases hb
  simp [decodeBody, requestReader, readBody, Instr.port]

theorem madeSafe x0 x1 x2 : Statement (.madeSafe x0 x1 x2) := by
  intro _ b hb
  cases hb
  simp [decodeBody, requestReader, readBody, Instr.port]

theorem closeIncident x0 x1 x2 : Statement (.closeIncident x0 x1 x2) := by
  intro _ b hb
  cases hb
  simp [decodeBody, requestReader, readBody, Instr.port]

theorem plan x0 x1 x2 : Statement (.plan x0 x1 x2) := by
  intro _ b hb
  cases hb
  simp [decodeBody, requestReader, readBody, Instr.port]

theorem hypotheticalResult : Statement (.hypotheticalResult) := fun _ _ hb => nomatch hb

theorem authorise x0 x1 x2 x3 : Statement (.authorise x0 x1 x2 x3) := by
  intro _ b hb
  cases hb
  simp [decodeBody, requestReader, readBody, Instr.port]

theorem windowDeadlineExpiry x0 : Statement (.windowDeadlineExpiry x0) := fun _ _ hb => nomatch hb

theorem cancel x0 x1 x2 : Statement (.cancel x0 x1 x2) := by
  intro _ b hb
  cases hb
  simp [decodeBody, requestReader, readBody, Instr.port]

theorem widen x0 x1 x2 : Statement (.widen x0 x1 x2) := by
  intro _ b hb
  cases hb
  simp [decodeBody, requestReader, readBody, Instr.port]

theorem proofDeadlineExpiry x0 : Statement (.proofDeadlineExpiry x0) := fun _ _ hb => nomatch hb

theorem confirm x0 x1 x2 : Statement (.confirm x0 x1 x2) := by
  intro _ b hb
  cases hb
  simp [decodeBody, requestReader, readBody, Instr.port]

theorem restore x0 x1 x2 : Statement (.restore x0 x1 x2) := by
  intro _ b hb
  cases hb
  simp [decodeBody, requestReader, readBody, Instr.port]

theorem publication : Statement (.publication) := fun _ _ hb => nomatch hb

theorem publicationSuppression : Statement (.publicationSuppression) := fun _ _ hb => nomatch hb

theorem publicationOutages : Statement (.publicationOutages) := fun _ _ hb => nomatch hb

theorem publicationProving : Statement (.publicationProving) := fun _ _ hb => nomatch hb

theorem relightReport x0 x1 x2 x3 x4 : Statement (.relightReport x0 x1 x2 x3 x4) := by
  intro _ b hb
  cases hb
  simp [decodeBody, requestReader, readBody, Instr.port]

theorem closeOutage x0 x1 x2 : Statement (.closeOutage x0 x1 x2) := by
  intro _ b hb
  cases hb
  simp [decodeBody, requestReader, readBody, Instr.port]

theorem frameStart : Statement (.frameStart) := fun _ _ hb => nomatch hb

theorem store x0 x1 : Statement (.store x0 x1) := by
  intro _ b hb
  cases hb
  simp [decodeBody, requestReader, readBody, Instr.port]

theorem storeEnd : Statement (.storeEnd) := fun _ _ hb => nomatch hb

theorem start x0 x1 : Statement (.start x0 x1) := by
  intro _ b hb
  cases hb
  simp [decodeBody, requestReader, readBody, Instr.port]

theorem lock x0 x1 : Statement (.lock x0 x1) := by
  intro _ b hb
  cases hb
  simp [decodeBody, requestReader, readBody, Instr.port]

theorem writeSegment x0 x1 x2 x3 x4 x5 : Statement (.writeSegment x0 x1 x2 x3 x4 x5) := by
  intro _ b hb
  cases hb
  simp [decodeBody, requestReader, readBody, Instr.port]

theorem writeValve x0 x1 x2 x3 x4 x5 x6 x7 x8 x9 : Statement (.writeValve x0 x1 x2 x3 x4 x5 x6 x7 x8 x9) := by
  intro _ b hb
  cases hb
  simp [decodeBody, requestReader, readBody, Instr.port]

theorem writeFeed x0 x1 x2 x3 x4 x5 : Statement (.writeFeed x0 x1 x2 x3 x4 x5) := by
  intro _ b hb
  cases hb
  simp [decodeBody, requestReader, readBody, Instr.port]

theorem writeStation x0 x1 x2 x3 x4 x5 x6 x7 x8 x9 x10 x11 x12 x13 x14 x15 :
    Statement (.writeStation x0 x1 x2 x3 x4 x5 x6 x7 x8 x9 x10 x11 x12 x13 x14 x15) := by
  intro _ b hb
  cases hb
  simp [decodeBody, requestReader, readBody, Instr.port]

theorem writePort x0 x1 x2 x3 x4 : Statement (.writePort x0 x1 x2 x3 x4) := by
  intro _ b hb
  cases hb
  simp [decodeBody, requestReader, readBody, Instr.port]

theorem writeParameter x0 x1 x2 x3 : Statement (.writeParameter x0 x1 x2 x3) := by
  intro _ b hb
  cases hb
  simp [decodeBody, requestReader, readBody, Instr.port]

theorem limitsWrite x0 x1 x2 x3 x4 x5 x6 x7 x8 : Statement (.limitsWrite x0 x1 x2 x3 x4 x5 x6 x7 x8) := by
  intro _ b hb
  cases hb
  simp [decodeBody, requestReader, readBody, Instr.port]

theorem collect x0 x1 x2 : Statement (.collect x0 x1 x2) := by
  intro _ b hb
  cases hb
  simp [decodeBody, requestReader, readBody, Instr.port]

theorem clearFault x0 x1 x2 : Statement (.clearFault x0 x1 x2) := by
  intro _ b hb
  cases hb
  simp [decodeBody, requestReader, readBody, Instr.port]

theorem ack x0 x1 x2 x3 : Statement (.ack x0 x1 x2 x3) := by
  intro _ b hb
  cases hb
  simp [decodeBody, requestReader, readBody, Instr.port]

theorem subscribe x0 x1 x2 x3 : Statement (.subscribe x0 x1 x2 x3) := by
  intro h b hb
  cases hb
  simp_all [Instr.wf, subscribeFits, decodeBody, requestReader, readBody, Instr.port, readDistricts]

theorem silence x0 x1 : Statement (.silence x0 x1) := by
  intro _ b hb
  cases hb
  simp [decodeBody, requestReader, readBody, Instr.port]

theorem readSegment x0 x1 x2 : Statement (.readSegment x0 x1 x2) := by
  intro _ b hb
  cases hb
  simp [decodeBody, requestReader, readBody, Instr.port]

theorem readValve x0 x1 x2 : Statement (.readValve x0 x1 x2) := by
  intro _ b hb
  cases hb
  simp [decodeBody, requestReader, readBody, Instr.port]

theorem readStation x0 x1 x2 : Statement (.readStation x0 x1 x2) := by
  intro _ b hb
  cases hb
  simp [decodeBody, requestReader, readBody, Instr.port]

theorem readPlan x0 x1 x2 x3 x4 : Statement (.readPlan x0 x1 x2 x3 x4) := by
  intro _ b hb
  cases hb
  simp [decodeBody, requestReader, readBody, Instr.port]

theorem readIncident x0 x1 x2 x3 : Statement (.readIncident x0 x1 x2 x3) := by
  intro _ b hb
  cases hb
  simp [decodeBody, requestReader, readBody, Instr.port]

theorem readCall x0 x1 x2 : Statement (.readCall x0 x1 x2) := by
  intro _ b hb
  cases hb
  simp [decodeBody, requestReader, readBody, Instr.port]

theorem readOutage x0 x1 x2 x3 x4 : Statement (.readOutage x0 x1 x2 x3 x4) := by
  intro _ b hb
  cases hb
  simp [decodeBody, requestReader, readBody, Instr.port]

theorem readAlarms x0 x1 x2 : Statement (.readAlarms x0 x1 x2) := by
  intro _ b hb
  cases hb
  simp [decodeBody, requestReader, readBody, Instr.port]

theorem readPort x0 x1 x2 : Statement (.readPort x0 x1 x2) := by
  intro _ b hb
  cases hb
  simp [decodeBody, requestReader, readBody, Instr.port]

end Laws.RequestBody

end Sys2Proof
end

