-- ==== Sys2Proof/Tests/Slice0.lean ====
section
/-! SUPPORT. Tests: the ill-formed commands that WellFormed refuses, the CRC and some frames written out from R170 and R181,
steps of the worked examples, and for each statement the states that meet its hypotheses. Expected results come from spec/:
the file of each is named. -/

namespace Sys2Proof.Tests

open Sys2Proof Sys2Proof.Machine

-- Many of these wait for one another's unfolding lemmas: elaborated at once they take a thread each.
set_option Elab.async false

/-! ## Helpers -/

/-- The state a command gives. -/
def go (c : Instr) (s : State) : State :=
  match exec c s with
  | .next t => t
  | _ => s

/-- A port of a role that is UP. -/
def up (r : Role) : LinkPort := { LinkPort.reset ⟨r, 19200⟩ with state := .up, liveness := some 10000 }

/-- LP0 and LP2 consoles, LP1 the telemetry port, LP3 dispatch, all UP (01_the_network_table.md, section 1.9). -/
def linked : Vector LinkPort 4 := #v[up .console, up .telemetry, up .console, up .dispatch]

/-- One entry of a table set. -/
def put {α : Type} {n : Nat} (i : Fin n) (a : α) (xs : Vector α n) : Vector α n := upd xs i (fun _ => a)

/-- Station 17's record and that of an outlet station (sections 1.9 and 2.14). -/
def station17 (l : Side) : StationStatic := ⟨true, l, 410, 3280, 10000, 2, 2, ⟨1500, 2500, 6000, 8000, 300, 150⟩⟩

/-- The network of section 1.9, with small numbers: feed 0, segments 0 to 2, valves 0 to 2, station 17 at segment 0 and station
30 at feed 0. -/
def net : Table := { Table.empty with
  segs := put 0 ⟨true, 0x43, 1200⟩ (put 1 ⟨true, 0x43, 850⟩ (put 2 ⟨true, 0x43, 2100⟩ Table.empty.segs))
  valves := put 0 ⟨true, .feed 0, .seg 0, .remote, .opened, false, 60⟩
    (put 1 ⟨true, .seg 0, .seg 1, .remote, .opened, false, 60⟩
      (put 2 ⟨true, .seg 1, .seg 2, .manual, .opened, false, 1800⟩ Table.empty.valves))
  feeds := put 0 ⟨true, 1500, 200⟩ Table.empty.feeds
  stations := put 17 (station17 (.seg 0)) (put 30 { station17 (.feed 0) with shift := 0 } Table.empty.stations)
  ports := #v[⟨.console, 19200⟩, ⟨.telemetry, 19200⟩, ⟨.console, 19200⟩, ⟨.dispatch, 19200⟩] }

/-- COMMISSIONING with that network and its ports UP. -/
def bench : State := { State.reset with table := net, ports := linked }

/-- A valve without fault at a position. -/
def at' (pos : Position) : ValveLive := ⟨pos, .noFault, none, [], false, 0⟩

/-- OPERATING with that network, gas everywhere, and nothing going on. -/
def desk : State := { bench with
  mode := .operating
  segLive := put 0 ⟨.live, 1⟩ (put 1 ⟨.live, 1⟩ (put 2 ⟨.live, 1⟩ bench.segLive))
  valveLive := put 0 (at' .opened) (put 1 (at' .opened) (put 2 (at' .opened) bench.valveLive))
  feedState := put 0 .accepted bench.feedState }

/-- Station 17 before reading A of section 2.13. -/
def before17 : StationLive := { StationLive.reset ⟨1500, 2500, 6000, 8000, 300, 150⟩ with
  quality := .good, pressure := 4100, tPrev := 120000, rate := -60, staleness := some 148000 }

/-- The desk as station 17 stands before reading A. -/
def evening : State := { desk with
  now := 128000, stationLive := put 17 before17 desk.stationLive, poll := { desk.poll with tiers := put 17 2 desk.poll.tiers } }

/-- An incident on segment 1 with its call. -/
def incident1 (st : IncidentState) (plan : Option (Nat × PlanMark)) : Incident :=
  ⟨1, 1, .calls, 0x43, [1], 2, false, plan, st, 0⟩
/-- The call of that incident. -/
def call1 : Call := ⟨7, 1, 2, .inside, 0, 1, .opened, some 1⟩
/-- The desk with that incident and call. -/
def called (st : IncidentState) (plan : Option (Nat × PlanMark)) : State := { desk with
  calls := { desk.calls with
    calls := [call1], arrivalSequence := 1, incidents := [incident1 st plan], lastIncident := 1, openingSequence := 1 } }

/-- A plan for incident 1 whose region is segment 1, with valves 1 and 2 to close. -/
def plan1 (st : PlanState) (committed : Bool) : Plan :=
  ⟨1, 1, st, committed, if committed then some 0 else none, false, if committed then 1 else 0, 0, [1], [⟨1, 0⟩], 0,
    [⟨1, 1⟩, ⟨2, 255⟩], [], [], [2], 2950, none, [], none, .none, none, false, [], [], false, none, none, none, none, []⟩
/-- The desk with that plan held. -/
def planned (p : Plan) (st : IncidentState) : State := { called st (some (1, .held)) with
  planner := { Planner.reset with plans := [p], lastPlan := 1, authCount := if p.committed then 1 else 0 } }

/-- An order of plan 1 to close valve 1. -/
def order1 (st : OrderState) : Order :=
  ⟨41, 1, .remote, .closeValve, 1, .close2, 1, false, st, none, if st = .queued then none else some 5000, none⟩
/-- The state with an order in the first record. -/
def ordered (o : Order) (s : State) : State := { s with
  switching := { s.switching with records := put 0 (some o) s.switching.records, lastTag := 41 } }

/-- Tags are apart where each pair of records is. -/
theorem tagsOk_of (s : State) (h : ∀ i j : Fin 64, s.switching.records[i].all (fun o => s.switching.records[j].all (fun o' =>
    decide (o.tag < 256 ∧ (o.state.nonFinal = true → o'.state.nonFinal = true → o.tag = o'.tag → i = j)))) = true) :
    s.tagsOk := by
  intro i j o o' ho ho'
  have hij := h i j
  rw [ho, ho'] at hij
  simpa only [Option.all_some, decide_eq_true_eq] using hij

/-! ## WellFormed refuses what no frame or deadline spells -/

theorem test_wf_refuses_a_short_list : (Instr.subscribe 0 1 2 [3]).wf = false := by decide
theorem test_wf_refuses_a_long_list : (Instr.subscribe 0 1 248 (List.replicate 248 3)).wf = false := by decide +kernel
theorem test_wf_takes_the_longest_list : (Instr.subscribe 0 1 247 (List.replicate 247 3)).wf = true := by decide +kernel
theorem test_wf_refuses_window_of_plan_0 : (Instr.windowDeadlineExpiry 0).wf = false := by decide
theorem test_wf_refuses_proof_of_plan_0 : (Instr.proofDeadlineExpiry 0).wf = false := by decide

/-! ## Frames (R170, R181) -/

/-- The CRC of R170 over the nine digits, the check value of this generator and start value. -/
theorem test_crc_check_value :
    crc [0x31, 0x32, 0x33, 0x34, 0x35, 0x36, 0x37, 0x38, 0x39] = 0x29B1 := by decide +kernel
theorem test_no_word_spells_a_command : decodeTableWord 8 0 = none := rfl
theorem test_decode_reading : decodeBody 1 [0x01, 0x05, 0x11, 0x06, 0xBB, 0x00] = .ok (.reading 1 5 17 1723 0) := rfl
theorem test_decode_call : decodeBody 3 [0x08, 1, 0x11, 0x22, 0x33, 0x44, 0x28, 0x01, 0x00] =
    .ok (.call 3 1 0x11223344 40 1 0) := rfl
theorem test_decode_write_valve : decodeBody 0 [0x11, 9, 0x00, 0x50, 0, 0x01, 0x04, 0x00, 0x28, 0, 0, 0, 0x00, 0x3C] =
    .ok (.writeValve 0 9 80 0 0x0104 0x0028 0 0 0 60) := rfl
theorem test_decode_authorise : decodeBody 2 [0x21, 1, 0x00, 0x10, 1] = .ok (.authorise 2 1 16 1) := rfl
theorem test_decode_unknown_kind : decodeBody 0 [0x40, 1] = .error .unknownKind := rfl
theorem test_decode_bad_length : decodeBody 0 [0x21, 1, 0x00, 0x10] = .error .badLength := rfl

/-- A SILENCE frame received byte by byte runs its request (R171). -/
theorem test_receive_runs_the_request :
    ((frameBytes [0x2A, 0x05]).foldl (fun s b => go (.receiveByte 0 b) s) desk).alarms.silenced = true := by decide +kernel
/-- A byte of it changed fails the CRC, which is counted (R171). -/
theorem test_receive_counts_a_bad_crc :
    let s := ((frameBytes [0x2A, 0x05]).set 3 0x06).foldl (fun s b => go (.receiveByte 0 b) s) desk
    s.alarms.silenced = false ∧ s.ports[(0 : Port)].crcCount = 1 := by decide +kernel

/-! ## Station 17 on a falling evening (02_pressure_surveillance.md, section 2.13) -/

/-- Reading A. -/
theorem test_reading_a :
    let l := (go (.reading 1 1 17 1723 0) evening).stationLive[(17 : StationId)]
    l.converted = some ⟨4003, .none, .good⟩ ∧ l.pressure = 4076 ∧ l.rate = -180 ∧ l.fallCount = 1 ∧ l.band = .normal ∧
      l.staleness = some 156000 := by decide +kernel
/-- Reading B: the fall opens an incident of grade 2 and raises PRESSURE_FALL. -/
theorem test_reading_b :
    let s := go (.reading 1 2 17 1560 0) { go (.reading 1 1 17 1723 0) evening with now := 134000 }
    let l := s.stationLive[(17 : StationId)]
    l.pressure = 3933 ∧ l.rate = -1430 ∧ l.fallCount = 2 ∧ l.staleness = some 162000 ∧
      s.calls.incidents.map (fun i => (i.origin, i.segments, i.grade)) = [(.pressure, [0], 2)] ∧
      s.alarms.general.map (fun r => (r.kind, r.object, r.priority, r.place)) = [(.pressureFall, 17, 2, 0x43)] ∧
      s.poll.tiers[(17 : StationId)] = 0 := by decide +kernel
/-- The limit cases of the conversion. -/
theorem test_conversion_limits :
    expectedPressure (station17 (.seg 0)) 380 = (0, .under) ∧ expectedPressure (station17 (.seg 0)) 4000 = (10000, .over) ∧
      expectedPressure (station17 (.seg 0)) 410 = (0, .none) ∧ expectedPressure (station17 (.seg 0)) 3690 = (10000, .none) := by
  decide +kernel

/-! ## Commissioning (01_the_network_table.md, section 1.9) -/

/-- Row 4: START names the valve whose side is absent. -/
theorem test_start_finds_the_absent_side :
    let s := { bench with table := { net with valves := put 2 ⟨true, .seg 1, .seg 3, .manual, .opened, false, 1800⟩ net.valves } }
    (go (.start 0 1) s).ports[(0 : Port)].queue = [[0x80, 1, 0x17, 6, 1, 0, 2]] ∧
      (go (.start 0 1) s).mode = .commissioning := by decide +kernel
/-- Row 9: START enters OPERATING and starts a pass. -/
theorem test_start_enters_operating :
    (go (.start 0 1) bench).mode = .operating ∧ (go (.start 0 1) bench).tracer.engine.code = 1 := by decide +kernel
/-- Row 13: the unlock line clears the lock. -/
theorem test_device_reset_unlocks :
    let s := { bench with store := ⟨net, true, true, .idle⟩ }
    (go (.deviceReset true) s).store.lock = false ∧ (go (.deviceReset true) s).mode = .commissioning ∧
      (go (.deviceReset false) s).mode = .operating ∧ (go (.deviceReset false) s).store.lock = true := by decide +kernel

/-! ## Witnesses: steps, resets and requests turned away -/

theorem witness_AnEmptyQueueIsOneMillisecond :
    ({ desk with now := 1999 } : State).pending = [] ∧ ({ desk with now := 1999 } : State).fallsDue 2000 .frameStart ∧
      ({ desk with now := 9999 } : State).fallsDue 10000 (.livenessDeadlineExpiry 3) := ⟨rfl, rfl, rfl⟩

theorem witness_RequestsAreTestedBeforeTheirBlocks :
    let i : Instr := .lock 1 9
    let full : State := { desk with ports := put 1 { up .telemetry with queue := List.replicate 32 [0] } linked }
    let unused : State := { desk with ports := put 1 (up .unused) linked }
    i.wf = true ∧ i.body = some [0x18, 9] ∧ unused.ports[i.port].role = .unused ∧ full.ports[i.port].role ≠ .unused ∧
      full.ports[i.port].state = .up ∧ full.ports[i.port].hasRoom = false ∧ desk.ports[i.port].state = .up ∧
      desk.ports[i.port].hasRoom = true ∧ desk.ports[i.port].role ≠ .unused ∧
      desk.ports[i.port].role.permits 0x18 = false := by decide +kernel

theorem witness_CommissioningRefusesWhatActs :
    (Instr.lock 0 9).operatingOnly = true ∧ (Instr.lock 0 9).body = some [0x18, 9] ∧ bench.ready 0 0x18 = true ∧
      (Instr.call 3 9 7 1 1 0).operatingOnly = true ∧ bench.ready 3 0x08 = true ∧ bench.mode = .commissioning := by
  decide +kernel

theorem witness_TableRequestsThatCannotBeTaken :
    let i : Instr := .writePort 0 1 0 0 0
    let busy : State := { bench with store := ⟨net, false, false, .writing none⟩ }
    let locked : State := { desk with store := ⟨net, true, true, .idle⟩ }
    i.writesTable = true ∧ i.startsOrStores = false ∧ (Instr.start 0 1).startsOrStores = true ∧ i.body.isSome = true ∧
      desk.ready 0 0x14 = true ∧ desk.mode = .operating ∧ desk.store.lock = false ∧ busy.ready 0 0x14 = true ∧
      busy.mode = .commissioning ∧ busy.store.state ≠ .idle ∧ locked.ready 0 0x14 = true ∧ locked.mode = .operating ∧
      locked.store.lock = true ∧ locked.alarms.general.length < 127 := by decide +kernel

/-! ## Witnesses: table writes -/

theorem witness_WriteSegmentAndFeedStoreTheirRecords :
    bench.ready 0 0x10 = true ∧ bench.ready 0 0x12 = true ∧ bench.mode = .commissioning ∧ bench.store.state = .idle ∧
      district 0xEF ≠ 15 ∧ district 0xF0 = 15 ∧ (0 : FeedId).val = (0 : Byte).toNat ∧
      (63 : FeedId).val = (63 : Byte).toNat ∧ bench.alarmsOk = true := by decide +kernel

theorem witness_WriteValveResetsTheLiveState :
    let faulty : State := { bench with valveLive := put 511 ⟨.closed, .stuck, none, [], false, 0⟩ bench.valveLive }
    faulty.ready 0 0x11 = true ∧ faulty.mode = .commissioning ∧ faulty.store.state = .idle ∧ faulty.commissioningQuiet ∧
      faulty.alarmsOk = true ∧ (511 : ValveId).val = (511 : Half).toNat ∧ sideOf 0x00FF = some (.seg 255) ∧
      sideOf 0x013F = some (.feed 63) ∧ (valveFieldsOf 1 1 1).isSome = true ∧ sideOf 0xFFFF = none ∧
      (go (.writeValve 0 1 1 1 0xFFFF 0xFFFF 9 9 9 0) faulty).table.valves[(1 : ValveId)].present = false ∧
      faulty.valveLive[(511 : ValveId)].fault ≠ .noFault := by decide +kernel

theorem witness_WriteStationResetsTheStation :
    let at0 : StationStatic := station17 (.seg 0)
    let four : State := { bench with table := { net with stations := put 1 at0 (put 2 at0 (put 3 at0 net.stations)) } }
    bench.ready 0 0x13 = true ∧ bench.mode = .commissioning ∧ bench.store.state = .idle ∧ bench.commissioningQuiet ∧
      bench.alarmsOk = true ∧ (127 : StationId).val = (127 : Byte).toNat ∧ sideOf 0x0000 = some (.seg 0) ∧
      four.ready 0 0x13 = true ∧ four.commissioningQuiet ∧ four.alarmsOk = true ∧
      ((stationsAt four.table (.seg 0)).filter (fun k => k != 127)).length = 4 ∧
      ((stationsAt bench.table (.feed 0)).filter (fun k => k != 127)).length = 1 ∧
      ((stationsAt bench.table (.feed 1)).filter (fun k => k != 127)).length = 0 ∧
      (go (.writeStation 0 1 17 1 0xFFFF 0 0 0 0 0 0 0 0 0 0 0) bench).table.stations[(17 : StationId)].present = false := by
  decide +kernel

theorem witness_WritePortAndParameterStoreTheirValues :
    bench.ready 0 0x14 = true ∧ bench.ready 0 0x15 = true ∧ bench.mode = .commissioning ∧ bench.store.state = .idle ∧
      (3 : Port).val = (3 : Byte).toNat ∧ roleOf 3 = some .unused ∧ 12 ≤ (12 : Byte).toNat ∧ (11 : Byte).toNat < 12 := by
  decide +kernel

theorem witness_TableWritesRefuseWhatDoesNotExist :
    bench.mode = .commissioning ∧ bench.store.state = .idle ∧ bench.ready 0 0x11 = true ∧ bench.ready 0 0x12 = true ∧
      bench.ready 0 0x13 = true ∧ bench.ready 0 0x14 = true ∧ 512 ≤ (512 : Half).toNat ∧ sideOf 0x0140 = none ∧
      64 ≤ (64 : Byte).toNat ∧ 128 ≤ (128 : Byte).toNat ∧ 4 ≤ (4 : Byte).toNat := by decide +kernel

theorem witness_StartEntersOperating :
    let fresh : State := { bench with table := { net with ports := Table.empty.ports } }
    bench.ready 0 0x17 = true ∧ bench.mode = .commissioning ∧ bench.store.state = .idle ∧ bench.commissioningQuiet ∧
      bench.table.firstFailure = none ∧ fresh.ready 0 0x17 = true ∧ fresh.commissioningQuiet ∧
      fresh.table.firstFailure = some (.roles, some 3) := by decide +kernel

/-- LP2 takes another role at START: its queue and its resync mark go (R16, R177). -/
theorem witness_StartResetsAPortOfANewRole :
    let s : State := { bench with ports := put 2 { up .dispatch with queue := [[9], [9]], resyncMark := true } bench.ports }
    let l := (go (.start 0 1) s).ports[(2 : Port)]
    s.ready 0 0x17 = true ∧ s.commissioningQuiet ∧ s.table.firstFailure = none ∧
      s.ports[(2 : Port)].role ≠ s.table.ports[(2 : Port)].role ∧ s.ports[(2 : Port)].held = 0 ∧
      ([9] : List Byte) ∉ l.queue ∧ l.resyncMark = false := by decide +kernel

theorem witness_StoreCopiesTheTableAndLockMarksIt :
    let stored : State := { desk with store := ⟨net, true, false, .idle⟩ }
    let writing : State := { bench with store := ⟨net, false, false, .writing (some (0, 4))⟩ }
    bench.ready 0 0x16 = true ∧ bench.mode = .commissioning ∧ bench.store.state = .idle ∧
      writing.store.state = .writing (some (0, 4)) ∧ bench.ready 0 0x18 = true ∧ desk.ready 0 0x18 = true ∧
      desk.mode = .operating ∧ desk.store.valid = false ∧ stored.ready 0 0x18 = true ∧ stored.mode = .operating ∧
      stored.store.valid = true := by decide +kernel

/-! ## Witnesses: pressure surveillance -/

theorem witness_GoodReadingRunsTheChain :
    let s := { evening with stationLive := put 17 { before17 with pressure := 1510, band := .lo } evening.stationLive }
    let t := go (.reading 1 1 17 800 0) s
    s.ready 1 0x01 = true ∧ s.table.presentStation 17 = some 17 ∧ limitsOrdered before17.active = true ∧
      t.stationLive[(17 : StationId)].band = .lolo ∧ t.stationLive[(17 : StationId)].band ≠ .lo := by decide +kernel

/-- A FAILED reading raises STATION_NO_DATA and the next GOOD one clears it (R24, R33). -/
theorem witness_GoodReadingEndsLostData :
    let s := go (.reading 1 1 17 0 2) evening
    let noData (x : State) := (x.alarms.general.filter (fun r => r.kind == .stationNoData)).map (fun r => (r.object, r.state))
    s.ready 1 0x01 = true ∧ s.stationLive[(17 : StationId)].quality = .failed ∧ s.alarmsOk = true ∧
      noData s = [(17, .unackActive)] ∧ noData (go (.reading 1 2 17 1723 0) s) = [(17, .unackCleared)] := by decide +kernel

theorem witness_BandAndFallAlarmsFollowTheReading :
    let low (b : Band) (f n : Nat) : State := { evening with
      stationLive := put 17 { before17 with pressure := f, band := b, fallCount := n } evening.stationLive }
    let after (b : Band) (f n : Nat) (raw : Half) : StationLive :=
      (go (.reading 1 1 17 raw 0) (low b f n)).stationLive[(17 : StationId)]
    evening.ready 1 0x01 = true ∧ evening.table.presentStation 17 = some 17 ∧ evening.alarmsOk = true ∧
      evening.alarms.general.length < 126 ∧ before17.suppressed = false ∧ limitsOrdered before17.active = true ∧
      (after .normal 4100 0 1723).band = .normal ∧ (after .lolo 1780 0 1100).band = .lo ∧
      (after .lo 2790 0 1800).band = .normal ∧ (after .normal 2600 0 1100).band = .lo ∧
      (after .lo 1510 0 800).band = .lolo ∧ (after .normal 4100 1 1723).fallCount = 2 ∧
      (after .normal 4100 2 1900).fallCount = 0 := by decide +kernel

/-- The clauses for a suppressed station: gas back with the band LO and with NORMAL, and no gas. -/
theorem witness_BandAlarmAfterSuppression :
    let quiet (f : Nat) (sup : Supply) : State := { evening with
      segLive := put 0 ⟨sup, 1⟩ evening.segLive
      stationLive := put 17 { before17 with pressure := f, suppressed := true } evening.stationLive }
    let back := go (.reading 1 1 17 1100 0) (quiet 2600 .uncertain)
    let well := go (.reading 1 1 17 1723 0) (quiet 4100 .live)
    let cut := go (.reading 1 1 17 1100 0) (quiet 2600 .dead)
    (quiet 2600 .dead).ready 1 0x01 = true ∧ (quiet 2600 .dead).alarmsOk = true ∧
      (quiet 2600 .uncertain).stationLive[(17 : StationId)].suppressed = true ∧
      back.stationLive[(17 : StationId)].band = .lo ∧ well.stationLive[(17 : StationId)].band = .normal ∧
      back.alarms.general.map (fun r => (r.kind, r.state, r.priority)) = [(.pressureBand, .unackActive, 2)] ∧
      well.alarms.general = [] ∧ cut.alarms.general = [] ∧ cut.stationLive[(17 : StationId)].suppressed = true := by
  decide +kernel

theorem witness_FastFallOpensAnIncident :
    let s : State := { evening with stationLive := put 17 { before17 with fallCount := 1 } evening.stationLive }
    let t := go (.reading 1 1 17 1723 0) s
    s.ready 1 0x01 = true ∧ s.table.presentStation 17 = some 17 ∧ s.table.stations[(17 : StationId)].location = .seg 0 ∧
      s.stationLive[(17 : StationId)].fallCount = 1 ∧ t.stationLive[(17 : StationId)].fallCount = 2 ∧
      s.mode = .operating ∧ s.segLive[(0 : SegId)].supply = .live ∧ (∀ x ∈ s.calls.incidents, (0 : SegId) ∉ x.segments) ∧
      s.calls.incidents.length < 16 ∧ s.noRestoring ∧
      (go (.reading 1 1 17 1723 0) evening).stationLive[(17 : StationId)].fallCount ≠ 2 := by decide +kernel

theorem witness_SuspectReadingConvertsOnly :
    let dead : State := { evening with stationLive := put 17 { before17 with quality := .failed } evening.stationLive }
    evening.ready 1 0x01 = true ∧ evening.table.presentStation 128 = none ∧ evening.table.presentStation 16 = none ∧
      evening.table.presentStation 17 = some 17 ∧ dead.ready 1 0x01 = true ∧ 1 < (2 : Byte).toNat ∧
      dead.stationLive[(17 : StationId)].quality = .failed := by decide +kernel

theorem witness_StationLosesItsData :
    let late : State := { evening with now := 148000 }
    let stale : State := { late with stationLive := put 17 { before17 with quality := .stale } evening.stationLive }
    evening.ready 1 0x01 = true ∧ evening.table.presentStation 17 = some 17 ∧ 1 < (255 : Byte).toNat ∧
      evening.stationLive[(17 : StationId)].quality ≠ .failed ∧
      expired late.now late.stationLive[(17 : StationId)].staleness = true ∧
      late.stationLive[(17 : StationId)].quality = .good ∧
      expired stale.now stale.stationLive[(17 : StationId)].staleness = true ∧
      stale.stationLive[(17 : StationId)].quality = .stale ∧
      expired evening.now evening.stationLive[(17 : StationId)].staleness = false ∧ evening.alarms.general.length < 127 := by
  decide +kernel

/-- Feed 0 as F4 of section 2.14: 1,500 of the minimum, 1,700 with the deadband. -/
theorem witness_FeedStateFollowsItsOutlet :
    let t (raw : Half) : State := go (.reading 1 1 30 raw 0) desk
    desk.ready 1 0x01 = true ∧ desk.table.presentStation 30 = some 30 ∧
      desk.table.stations[(30 : StationId)].location = .feed 0 ∧ desk.table.feeds[(0 : FeedId)].present = true ∧
      (t 902).feedState[(0 : FeedId)] = .accepted ∧ (t 900).feedState[(0 : FeedId)] = .failed ∧
      (t 900).stationLive[(30 : StationId)].pressure = 1494 ∧ desk.alarms.general.length < 125 ∧ desk.noRestoring ∧
      desk.alarmsOk = true := by decide +kernel

theorem witness_LimitsWaitAndCollectEmpties :
    desk.ports[(1 : Port)].state = .up ∧ desk.ports[(1 : Port)].hasRoom = true ∧ desk.ports[(1 : Port)].role = .telemetry ∧
      desk.ports[(0 : Port)].state = .up ∧ desk.ports[(0 : Port)].hasRoom = true ∧ desk.ports[(0 : Port)].role = .console ∧
      desk.table.presentStation 128 = none ∧ desk.table.presentStation 17 = some 17 ∧
      limitsValid ⟨0, 1, 2, 1000000, 0, 100000⟩ = true ∧ limitsValid ⟨0, 1, 2, 1000001, 0, 100000⟩ = false := by
  decide +kernel

/-- A publication of generation 2 that saw nothing change. -/
def pub2 : Publication := ⟨2, 0, 0, 1, []⟩

theorem witness_SuppressionFollowsThePublication :
    let s : State := { desk with tracer := { desk.tracer with deliveries := [(.suppression, pub2), (.outages, pub2)] } }
    s.tracer.deliveries = (.suppression, pub2) :: [(.outages, pub2)] ∧
      (go .publicationSuppression s).tracer.deliveries = [(.outages, pub2)] := by decide +kernel

/-! ## Witnesses: polls and supply -/

theorem witness_FrameStartDisposesOfItsList :
    let due : State := { evening with now := 130000, nextFrame := 130000 }
    let silent : State := { due with ports := put 1 { up .telemetry with state := .silent } linked }
    let full : State := { due with ports := put 1 { up .telemetry with queue := List.replicate 32 [0] } linked }
    reached evening.now 128001 = false ∧ reached due.now due.nextFrame = true ∧ due.isTelemetry 1 ∧ ¬due.isTelemetry 0 ∧
      due.ports[(1 : Port)].state = .up ∧ due.ports[(1 : Port)].entries + 1 < 32 ∧
      reached silent.now silent.nextFrame = true ∧ (∀ p : Port, silent.isTelemetry p → silent.ports[p].state ≠ .up) ∧
      full.isTelemetry 1 ∧ full.ports[(1 : Port)].state = .up ∧ 32 ≤ full.ports[(1 : Port)].entries := by decide +kernel

/-- The desk with a published pass running. -/
def passing : State := { desk with tracer := { desk.tracer with engine := .publishing desk.begin.snapshot, rerun := true } }

theorem witness_PublicationPublishesThePass :
    passing.tracer.engine = .publishing desk.begin.snapshot ∧ desk.tracer.engine = .idle ∧
      (go .publication passing).tracer.generation = 1 ∧ (go .publication passing).tracer.rerun = false := by decide +kernel

theorem witness_OnlyTheirCommandsMoveTheseParts :
    (∃ t, exec (.silence 0 1) desk = .next t) ∧ (∀ p b, Instr.silence 0 1 ≠ .receiveByte p b) ∧
      (∀ u, Instr.silence 0 1 ≠ .deviceReset u) :=
  ⟨⟨_, rfl⟩, nofun, nofun⟩

/-! ## Witnesses: calls and incidents -/

theorem witness_CallIsRecordedAndGrouped :
    let s := called .opened none
    desk.ready 3 0x08 = true ∧ desk.mode = .operating ∧ desk.callsOk = true ∧ desk.table.presentSeg 0 = some 0 ∧
      gradeOf 3 = some 3 ∧ callPlaceOf 1 = some .outside ∧ (∀ c ∈ desk.calls.calls, c.ref ≠ 0) ∧
      desk.calls.calls.length < 64 ∧ desk.calls.incidents.length < 16 ∧ s.ready 3 0x08 = true ∧ s.callsOk = true ∧
      (∀ c ∈ s.calls.calls, c.ref ≠ 8) ∧ s.table.presentSeg 1 = some 1 ∧
      s.calls.incidents.find? (fun i => i.segments.contains 1) = some (incident1 .opened none) ∧
      s.calls.incidents.find? (fun i => i.segments.contains 0) = none ∧ s.table.adjoins 0 [1] = true := by decide +kernel

/-- The desk with sixteen incidents held and no call. -/
def crowded : State := { desk with calls := { desk.calls with
  incidents := (List.range 16).map (fun k => ⟨k + 1, k + 1, .pressure, 0x99, [], 2, false, none, .opened, 0⟩)
  lastIncident := 16, openingSequence := 16 } }

theorem witness_CallIsRecordedUngrouped :
    crowded.ready 3 0x08 = true ∧ crowded.callsOk = true ∧ crowded.calls.incidents.length = 16 ∧
      crowded.calls.incidents.find? (fun i => i.segments.contains 0) = none ∧
      (go (.call 3 1 5 0 1 0) crowded).calls.calls.map (fun c => c.incident) = [none] := by decide +kernel

/-- Event 2 of section 5.10 answers "OK, 7": the header of R181, the incident number (R182), then the call reference (R76). The
number here is that of the incident held at the segment. -/
theorem test_call_reply_carries_number_and_reference :
    (go (.call 3 9 0x11223344 1 3 1) (called .opened none)).ports[(3 : Port)].queue.head? =
      some [0x80, 9, 0x08, 0, 1, 0x11, 0x22, 0x33, 0x44] := by decide +kernel

/-- The desk with 64 calls held. -/
def fullDesk : State := { desk with calls := { desk.calls with
  calls := (List.range 64).map (fun k => ⟨BitVec.ofNat 32 k, 0, 3, .outside, 0, k, .opened, none⟩) } }

theorem witness_CallGradesAndEscalates :
    let s := called .opened none
    let hot : State := { s with calls := { s.calls with arrivals := put 0x43 [0, 0, 0] s.calls.arrivals } }
    s.ready 3 0x08 = true ∧ s.mode = .operating ∧ s.callsOk = true ∧ s.table.presentSeg 1 = some 1 ∧
      (gradeOf 1).isSome = true ∧ (callPlaceOf 0).isSome = true ∧ call1 ∈ s.calls.calls ∧ call1.ref = 7 ∧
      fullDesk.ready 3 0x08 = true ∧ fullDesk.callsOk = true ∧ (∀ c ∈ fullDesk.calls.calls, c.ref ≠ 64) ∧
      fullDesk.calls.calls.length = 64 ∧ fullDesk.alarms.general.length < 127 ∧ hot.ready 3 0x08 = true ∧
      hot.callsOk = true ∧ (go (.call 3 1 8 1 3 0) hot).calls.arrivals[(0x43 : Fin 256)].length = 4 := by decide +kernel

/-- An incident opened by the CALL that fills the arrival list is escalated by that CALL, and has grade 1 (R80, R82). -/
theorem witness_ACallEscalatesItsOwnIncident :
    let hot : State := { desk with calls := { desk.calls with arrivals := put 0x43 [0, 0, 0] desk.calls.arrivals } }
    hot.ready 3 0x08 = true ∧ hot.mode = .operating ∧ hot.callsOk = true ∧ hot.table.presentSeg 1 = some 1 ∧
      hot.table.params.escalationCount ≤ (go (.call 3 1 8 1 3 0) hot).calls.arrivals[(0x43 : Fin 256)].length ∧
      (go (.call 3 1 8 1 3 0) hot).calls.incidents.map (fun i => (i.escalated, i.grade)) = [(true, 1)] := by decide +kernel

theorem witness_DispatchMovesCallsAndIncidents :
    let s := called .opened none
    let loose : State := { desk with calls := { desk.calls with calls := [{ call1 with incident := none }] } }
    desk.ports[(3 : Port)].state = .up ∧ desk.ports[(3 : Port)].hasRoom = true ∧ desk.ports[(3 : Port)].role = .dispatch ∧
      desk.ports[(0 : Port)].role = .console ∧ bench.ports[(3 : Port)].role = .dispatch ∧ bench.mode = .commissioning ∧
      s.mode = .operating ∧ s.callsOk = true ∧ updateStateOf 0 = none ∧ updateStateOf 1 = some .attended ∧
      updateStateOf 2 = some .closed ∧ call1 ∈ s.calls.calls ∧ call1.state = .opened ∧
      call1.incident = some (incident1 .opened none).number ∧ loose.callsOk = true ∧
      (∀ c ∈ s.calls.calls, c.ref ≠ 8) ∧ incident1 .opened none ∈ s.calls.incidents ∧
      (incident1 .opened none).number = (1 : Byte).toNat ∧
      (∀ i ∈ s.calls.incidents, i.number ≠ (0 : Byte).toNat) ∧
      (called .restoring none).calls.incidents = [incident1 .restoring none] := by decide +kernel

theorem witness_CloseIncidentFreesItsRecords :
    let s := called .opened none
    (s.ready 0 0x26 = true ∧ s.mode = .operating ∧ s.callsOk = true ∧ s.alarmsOk = true ∧
      incident1 .opened none ∈ s.calls.incidents ∧ (incident1 .opened none).number = (1 : Byte).toNat ∧
      (∀ c ∈ s.calls.calls, c.incident ≠ none) ∧ (∀ i ∈ s.calls.incidents, i.number ≠ (2 : Byte).toNat)) ∧
      (∀ n, (incident1 .opened none).plan ≠ some (n, .held)) ∧
      ∃ n, (incident1 .isolating (some (1, .held))).plan = some (n, .held) :=
  ⟨by decide +kernel, nofun, ⟨1, rfl⟩⟩

/-! ## Witnesses: plans -/

theorem witness_PlanIsCreatedForItsIncident :
    let s := called .opened none
    let busy : State := { s with planner := { s.planner with engine := .draining, lastPlan := 65535 } }
    let eight : State := { s with planner := { s.planner with
      plans := (List.range 8).map (fun k => { plan1 .proposed false with number := k + 10 }) } }
    (s.ready 0 0x20 = true ∧ s.mode = .operating ∧ s.callsOk = true ∧ s.plansOk = true ∧
      incident1 .opened none ∈ s.calls.incidents ∧ (incident1 .opened none).number = (1 : Byte).toNat ∧
      s.planner.plans.length < 8 ∧ busy.plansOk = true ∧ busy.planner.engine ≠ .idle ∧ eight.plansOk = true ∧
      eight.planner.plans.length = 8 ∧ (called .restoring none).callsOk = true) ∧
      ∀ n, (incident1 .opened none).plan ≠ some (n, .held) := ⟨by decide +kernel, nofun⟩

/-- The INCIDENT NOTICE of step 2 stands ahead of the reply of step 4; with one entry left, the one held for the reply, it is
dropped and the reply is not (R92, R175). -/
theorem test_plan_notice_order :
    let s := called .opened none
    let near : State := { s with ports := put 0 { up .console with queue := List.replicate 31 [9] } s.ports }
    let heads (x : State) := (((go (.plan 0 1 1) x).ports[(0 : Port)].queue.filter (fun f => f != [9])).map List.head?).take 3
    heads s = [some 0x95, some 0x80, some 0x96] ∧ heads near = [some 0x80] := by decide +kernel

theorem witness_PlanRunIsolatesItsRegion :
    let s := called .madeSafe none
    (s.ready 0 0x20 = true ∧ s.mode = .operating ∧ s.callsOk = true ∧ s.plansOk = true ∧
      incident1 .madeSafe none ∈ s.calls.incidents ∧ s.planner.plans.length < 8 ∧ s.planner.engine = .idle ∧
      s.planner.queue = [] ∧ (go (.plan 0 1 1) s).planner.engine.runsFor 1 = true) ∧
      ∀ n, (incident1 .madeSafe none).plan ≠ some (n, .held) := ⟨by decide +kernel, nofun⟩

/-- An incident on segment 0, which an OPEN valve joins to feed 0, and one on segment 1 with every valve UNKNOWN but that of
the feed. -/
def atFeed : State := let s := called .opened none
  { s with calls := { s.calls with incidents := [{ incident1 .opened none with segments := [0] }] } }
/-- Segment 1 with its valves UNKNOWN. -/
def unknown : State := let s := called .opened none
  { s with valveLive := put 1 (at' .unknown) (put 2 (at' .unknown) s.valveLive) }

/-- The growth that reaches a feed at ring 0 and at ring 1: FEED_BOUNDARY, with the rings used and the region reached (R95). -/
theorem witness_PlanRunEndsInfeasible :
    let plans (s : State) := (go (.plan 0 1 1) s).planner.plans.map (fun p => (p.state, p.reason, p.ringsUsed, p.segs))
    atFeed.ready 0 0x20 = true ∧ atFeed.callsOk = true ∧ atFeed.plansOk = true ∧
      { incident1 .opened none with segments := [0] } ∈ atFeed.calls.incidents ∧ unknown.callsOk = true ∧
      unknown.ready 0 0x20 = true ∧ plans atFeed = [(.infeasible, .feedBoundary, 0, [0])] ∧
      plans unknown = [(.infeasible, .feedBoundary, 1, [1, 0, 2])] := by decide +kernel

/-- The boundary of segment 0 meets the feed. -/
theorem witness_meetsFeed : atFeed.meetsFeed 1 (atFeed.within 1 [0] 0) :=
  ⟨0, 0, ⟨by decide +kernel, ⟨0, List.mem_singleton.mpr rfl, by unfold joins; decide +kernel⟩, nofun⟩, by
    dsimp only [State.unusable]; decide +kernel⟩

/-- The boundary of segment 1 has no unusable valve where its valves are OPEN. -/
theorem witness_enclosed : (called .madeSafe none).enclosed 1 ((called .madeSafe none).within 1 [1] 0) := by
  intro v outer ⟨hp, ⟨g, hg, hj⟩, _⟩
  have h : ∀ v : ValveId, (called .madeSafe none).table.valves[v].present = true →
      (called .madeSafe none).valveLive[v].fault = .noFault ∧ (called .madeSafe none).valveLive[v].claim = none ∧
      (called .madeSafe none).valveLive[v].position = .opened ∧ (called .madeSafe none).table.valves[v].noClose = false ∧
      ((called .madeSafe none).table.valves[v].sideA = .seg 1 →
        (called .madeSafe none).table.valves[v].sideB.isFeed = false) ∧
      ((called .madeSafe none).table.valves[v].sideB = .seg 1 →
        (called .madeSafe none).table.valves[v].sideA.isFeed = false) := by decide +kernel
  obtain ⟨hf, hc, hq, hn, hA, hB⟩ := h v hp
  obtain rfl : g = 1 := by simpa [State.within] using hg
  have ho : outer.isFeed = false := by
    rcases hj with ⟨ha, rfl⟩ | ⟨rfl, hb⟩
    · exact hA ha
    · exact hB hb
  simp only [Fin.getElem_fin] at hf hc hq hn
  simp [State.unusable, hf, hc, hq, hn, ho]

/-- The run of plan 1, and the state in which its hypothetical pass runs. -/
def run1 : Run := ⟨1, 1, 0, [⟨1, 0⟩], 0, [1, 2], [], []⟩
/-- Plan 1 with its run waiting for its result. -/
def running (p : Plan) : State := { planned p .opened with
  planner := ⟨[p], 1, 1, [], .running run1⟩
  tracer := { desk.tracer with engine := .hypothetical desk.begin.snapshot [1, 2] } }

theorem witness_HypotheticalResultEndsTheRun :
    let s := running (plan1 .computing false)
    let c := running { plan1 .replanning true with authCustomers := some 2950 }
    let d : State := { desk with
      planner := { Planner.reset with engine := .draining }
      tracer := { desk.tracer with engine := .hypothetical desk.begin.snapshot [] } }
    s.tracer.engine = .hypothetical desk.begin.snapshot [1, 2] ∧ s.planner.engine = .running run1 ∧
      s.plan? run1.plan = some (plan1 .computing false) ∧ s.planner.queue = [] ∧ s.noRestoring ∧ s.plansOk = true ∧
      s.revision = run1.basis ∧ (plan1 .computing false).rerun = false ∧ c.plansOk = true ∧ c.noRestoring ∧
      d.planner.engine = .draining ∧ d.planner.queue = [] ∧
      (go .hypotheticalResult s).planner.plans.map (fun p => (p.state, p.customers)) = [(.proposed, 2950)] ∧
      (go .hypotheticalResult c).planner.plans.map (fun p => p.state) = [.executing] := by decide +kernel

/-- A run overtaken by the revision starts afresh with the next count; a rerun mark starts it with count 1; a published pass
that waits starts; and a committed plan whose shared holds are full keeps its lists. -/
theorem witness_HypotheticalResultOvertaken :
    let s : State := { running (plan1 .computing false) with revision := 4 }
    let again := running { plan1 .computing false with rerun := true }
    let waits : State := { s with tracer := { s.tracer with rerun := true } }
    let c := running { plan1 .replanning true with authCustomers := some 2950 }
    let full : State := { c with
      planner := { c.planner with engine := .running { run1 with close := [1], shared := [2] } }
      valveLive := put 2 ⟨.closed, .noFault, some 9, [2, 3, 4, 5, 6, 7, 8], false, 0⟩ c.valveLive }
    let counts (e : PlanEngine) : Option (Nat × Word) := match e with
      | .running r => some (r.count, r.basis)
      | _ => none
    s.revision ≠ run1.basis ∧ run1.count < 3 ∧ s.plansOk = true ∧ s.noRestoring ∧ again.plansOk = true ∧
      waits.tracer.rerun = true ∧ full.plansOk = true ∧ full.noRestoring ∧
      7 ≤ full.valveLive[(2 : ValveId)].holds.length ∧ 1 ∉ full.valveLive[(2 : ValveId)].holds ∧
      counts (go .hypotheticalResult s).planner.engine = some (2, 4) ∧
      counts (go .hypotheticalResult again).planner.engine = some (1, 0) ∧
      (go .hypotheticalResult full).planner.plans.map (fun p => (p.state, p.reason, p.close)) =
        [(.infeasible, .valves, (plan1 .replanning true).close)] := by decide +kernel

theorem witness_AuthoriseCommitsThePlan :
    let s := planned { plan1 .proposed false with customers := 1999 } .opened
    let two := planned (plan1 .proposed false) .opened
    let second := planned { plan1 .authorising false with authorisations := [0], window := some 5 } .opened
    let moved : State := { s with revision := 1 }
    s.ready 0 0x21 = true ∧ s.mode = .operating ∧ s.plansOk = true ∧ s.plan? 0 = none ∧
      s.plan? 1 = some { plan1 .proposed false with customers := 1999 } ∧ s.noRestoring ∧ s.revision = 0 ∧
      s.needs { plan1 .proposed false with customers := 1999 } = 1 ∧ two.needs (plan1 .proposed false) = 2 ∧
      second.ready 2 0x21 = true ∧ second.plansOk = true ∧ moved.plansOk = true ∧ moved.revision ≠ 0 ∧
      (∀ k : Fin 64, s.switching.records[k] = none) ∧ (∀ x ∈ s.planner.plans, x.state ≠ .executing) ∧
      ((go (.authorise 0 1 1 0) s).planner.plans.map (fun p => p.state) = [.executing]) ∧
      (go (.authorise 0 1 1 0) s).valveLive[(1 : ValveId)].claim = some 1 := by decide +kernel

theorem witness_PlanDeadlinesRunOut :
    let a : State := { planned { plan1 .authorising false with window := some 100 } .opened with now := 100 }
    let b : State := { planned { plan1 .proving true with proofDeadline := some 100 } .isolating with now := 100 }
    a.plansOk = true ∧ b.plansOk = true ∧ a.plan? 1 = some { plan1 .authorising false with window := some 100 } ∧
      expired a.now (some 100) = true ∧ expired 99 (some 100) = false ∧ a.noRestoring ∧ b.noRestoring ∧
      b.alarms.general.length < 127 ∧
      (go (.proofDeadlineExpiry 1) b).alarms.general.map (fun r => r.kind) = [.isolationLetBy] := by decide +kernel

theorem witness_CancelAndRestoreEndThePlan :
    let fresh := planned (plan1 .proposed false) .opened
    let busy := planned (plan1 .executing true) .isolating
    let restoring := planned (plan1 .restoring true) .restoring
    let proven := planned (plan1 .proven true) .madeSafe
    fresh.mode = .operating ∧ fresh.callsOk = true ∧ fresh.plansOk = true ∧ fresh.ready 0 0x22 = true ∧ fresh.noRestoring ∧
      fresh.plan? 1 = some (plan1 .proposed false) ∧ busy.plansOk = true ∧ busy.noRestoring ∧
      (plan1 .executing true).committed = true ∧ restoring.plansOk = true ∧ restoring.ready 0 0x22 = true ∧
      proven.ready 0 0x25 = true ∧ proven.plansOk = true ∧ proven.callsOk = true ∧
      (proven.incident? 1).map (fun i => i.state) = some .madeSafe ∧
      (go (.restore 0 1 1) proven).planner.plans = [] := by decide +kernel

/-- Plan 1 in PROVEN with two done valves as they stand: valve 1 first, valve 2 last. -/
def twoDone (first last : ValveLive) : State :=
  let s := planned { plan1 .proven true with done := [⟨1, .notDealt⟩, ⟨2, .notDealt⟩] } .madeSafe
  { s with valveLive := put 1 first (put 2 last s.valveLive) }
/-- The same with a plan 2 that shares the hold of a valve. -/
def withOther (s : State) : State := { s with
  planner := { s.planner with
    plans := s.planner.plans ++ [{ plan1 .proving true with number := 2, authSequence := 2, shared := [2] }]
    lastPlan := 2, authCount := 2 } }

/-- A valve that plan 1 claims. -/
def mine (pos : Position) (f : ValveFault) (hs : List Nat) : ValveLive := ⟨pos, f, some 1, hs, false, 0⟩
/-- Two done valves to be reopened, and the second with a hold of plan 2. -/
def asks : State := twoDone (mine .closed .noFault []) (mine .closed .noFault [])
/-- The second valve is held by plan 2 too. -/
def passes : State := withOther (twoDone (mine .closed .noFault []) (mine .closed .noFault [2]))
/-- What a RESTORE leaves of plan 1: the progress of its entries, and its incomplete list. -/
def turns (s : State) : Option (List Progress × List ValveId) :=
  ((go (.restore 0 1 1) s).plan? 1).map (fun p => (p.done.map (fun d => d.progress), p.incomplete))
/-- The orders that a RESTORE leaves live. -/
def liveOrders (s : State) : List (ValveId × OrderAction × OrderClass × Nat) :=
  (go (.restore 0 1 1) s).switching.records.toList.filterMap (fun r =>
    (r.filter (fun o => o.state.nonFinal)).map (fun o => (o.valve, o.action, o.orderClass, o.rank)))

/-- The reopening turns of a plan that enters RESTORING: an OPEN order for the last entry with the first left, and a claim passed
on, after which the first entry has its order (R141, R142). -/
theorem witness_RestoringAsksAndPasses :
    asks.ready 0 0x25 = true ∧ asks.callsOk = true ∧ asks.plansOk = true ∧ asks.noRestoring ∧ passes.plansOk = true ∧
      passes.noRestoring ∧ turns asks = some ([.notDealt, .notDealt], []) ∧
      liveOrders asks = [(2, .openValve, .openClass, 255)] ∧ turns passes = some ([.notDealt, .passedOn], []) ∧
      liveOrders passes = [(1, .openValve, .openClass, 1)] ∧
      (go (.restore 0 1 1) passes).valveLive[(2 : ValveId)].claim = some 2 ∧
      ((go (.restore 0 1 1) passes).plan? 2).map (fun p => (p.shared, p.done.map (fun d => d.valve))) = some ([], [2]) := by
  decide +kernel

/-- A faulty valve, an OPEN one, one that waits for its re-close, and a plan whose turns deal with every entry (R141, R143). -/
theorem witness_RestoringDealsAtOnce :
    let faulty := twoDone (mine .closed .noFault []) (mine .closed .stuck [])
    let opened := twoDone (mine .closed .noFault []) (mine .opened .noFault [])
    let waits := ordered { order1 .sent with valve := 2, reclose := true } asks
    let allDone := twoDone (mine .opened .noFault []) (mine .closed .stuck [])
    turns faulty = some ([.notDealt, .incomplete], [2]) ∧ turns opened = some ([.notDealt, .reopened], []) ∧
      turns waits = some ([.notDealt, .notDealt], []) ∧ liveOrders waits = [(2, .closeValve, .close2, 1)] ∧
      turns allDone = none := by decide +kernel

/-- The plan's own number in the shared holds of a valve it claims passes nothing on (notes/assumptions/64.md). -/
theorem test_own_hold_is_passed_over :
    let closed := twoDone (mine .closed .noFault []) (mine .closed .noFault [1])
    closed.ready 0 0x25 = true ∧ closed.plansOk = true ∧ closed.noRestoring ∧
      turns closed = some ([.notDealt, .notDealt], []) ∧ liveOrders closed = [(2, .openValve, .openClass, 255)] ∧
      turns (twoDone (mine .closed .noFault []) (mine .opened .noFault [1])) = some ([.notDealt, .reopened], []) := by
  decide +kernel

theorem witness_WidenAndConfirmAnswerAJudgement :
    let s := planned (plan1 .letBy true) .isolating
    let u := planned (plan1 .unproven true) .isolating
    let e := planned (plan1 .executing true) .isolating
    s.mode = .operating ∧ s.plansOk = true ∧ s.plan? 1 = some (plan1 .letBy true) ∧ s.ready 0 0x23 = true ∧
      s.ready 0 0x24 = true ∧ s.noRestoring ∧ s.alarmsOk = true ∧ u.plansOk = true ∧ e.plansOk = true ∧ e.mode = .operating ∧
      (go (.confirm 0 1 1) u).planner.plans.map (fun p => p.state) = [.proven] := by decide +kernel

/-! ## Witnesses: orders and valves -/

/-- The desk with valve 1 held CLOSED by plan 1. -/
def holding (st : PlanState) (used : Bool) : State :=
  let s := planned { plan1 st true with done := [⟨1, .notDealt⟩] } .isolating
  { s with valveLive := put 1 ⟨.closed, .noFault, some 1, [], used, 0⟩ s.valveLive }

/-- The desk with plan 1 in EXECUTING and its CLOSE order of valve 1 in a state. -/
def closing (st : OrderState) : State :=
  let s := planned (plan1 .executing true) .isolating
  ordered (order1 st) { s with valveLive := put 1 ⟨.opened, .noFault, some 1, [], false, 0⟩ s.valveLive }

/-- The desk with plan 1 in RESTORING and its OPEN order of valve 1 in a state. -/
def opening (st : OrderState) : State :=
  let s := planned { plan1 .restoring true with done := [⟨1, .notDealt⟩] } .restoring
  ordered { order1 st with action := .openValve, orderClass := .openClass }
    { s with valveLive := put 1 ⟨.closed, .noFault, some 1, [], false, 0⟩ s.valveLive }

theorem witness_ValveReportsMoveTheValve :
    let s := holding .proving false
    let again := holding .proving true
    let alone := planned (plan1 .executing true) .isolating
    let due : State := { alone with valveLive := put 1 ⟨.opened, .noFault, some 1, [], false, 0⟩ alone.valveLive }
    desk.ready 1 0x02 = true ∧ desk.ready 3 0x0E = true ∧ desk.table.presentValve 512 = none ∧
      desk.table.presentValve 2 = some 2 ∧ positionOf 4 = none ∧ positionOf 3 = some .unknown ∧
      desk.table.valves[(2 : ValveId)].kind = .manual ∧ desk.noRestoring ∧ desk.plansOk = true ∧
      s.ready 1 0x02 = true ∧ s.table.presentValve 1 = some 1 ∧ s.table.valves[(1 : ValveId)].kind = .remote ∧
      s.plansOk = true ∧ s.noRestoring ∧ s.valveLive[(1 : ValveId)].claim = some 1 ∧ (s.plan? 1).isSome = true ∧
      s.valveLive[(1 : ValveId)].position = .closed ∧ PlanState.proving.recloses = true ∧ PlanState.proving.mayReplan = true ∧
      again.plansOk = true ∧ again.valveLive[(1 : ValveId)].recloseUsed = true ∧ due.plansOk = true ∧
      (closing .sent).plansOk = true ∧ (closing .sent).noRestoring ∧
      ((go (.valveReport 1 1 1 0 0) s).planner.plans.map (fun p => p.state) = [.executing]) ∧
      ((go (.valveReport 1 1 1 0 0) again).valveLive[(1 : ValveId)].fault = .localControl) ∧
      ((go (.valveReport 1 1 1 1 0) due).planner.plans.map (fun p => p.done.map (fun d => d.valve)) = [[1]]) := by
  decide +kernel

/-- The valve and state of the first order record. -/
def firstOrder (t : State) : Option (ValveId × OrderState) :=
  t.switching.records[(0 : Fin 64)].map (fun o => (o.valve, o.state))
/-- The plans' states and done valves. -/
def doneOf (t : State) : List (PlanState × List ValveId) :=
  t.planner.plans.map (fun p => (p.state, p.done.map (fun d => d.valve)))

/-- A QUEUED CLOSE whose valve is reported CLOSED is withdrawn, and its record serves the next rank; with the local-control flag
it is FAILED instead, and its plan is computed again: the faulty valve cannot be used and leads to a feed (R95, R113, R115,
R121, R126). -/
theorem test_flagged_report_fails_the_queued_close :
    let plain := go (.valveReport 1 1 1 1 0) (closing .queued)
    let flagged := go (.valveReport 1 1 1 1 1) (closing .queued)
    (closing .queued).plansOk = true ∧ (closing .queued).noRestoring ∧ (closing .queued).ready 1 0x02 = true ∧
      firstOrder plain = some (2, .sent) ∧ doneOf plain = [(.executing, [1])] ∧
      firstOrder flagged = some (1, .failed) ∧ doneOf flagged = [(.infeasible, [1])] := by
  decide +kernel

/-- An order in the first record meets the law of tags. -/
theorem closing_tagsOk (st : OrderState) : (closing st).tagsOk := by
  apply tagsOk_of; cases st <;> decide +kernel
/-- So does the OPEN order. -/
theorem opening_tagsOk (st : OrderState) : (opening st).tagsOk := by
  apply tagsOk_of; cases st <;> decide +kernel

theorem witness_OrderAcceptAndFailMoveTheOrder :
    (closing .sent).tagsOk ∧ (closing .accepted).tagsOk ∧ (closing .sent).ready 1 0x03 = true ∧
      (closing .sent).ready 1 0x05 = true ∧ (closing .sent).ready 3 0x0D = true ∧
      (closing .sent).table.presentValve 512 = none ∧ (closing .sent).table.presentValve 1 = some 1 ∧
      (closing .sent).switching.records[(0 : Fin 64)] = some (order1 .sent) ∧ (order1 .sent).answers .remote 41 1 ∧
      (order1 .accepted).answers .remote 41 1 ∧ ¬(order1 .queued).answers .remote 41 1 ∧
      ¬(order1 .sent).answers .remote 42 1 ∧ reasonOf 2 = none ∧ reasonOf 4 = some .comms :=
  ⟨closing_tagsOk _, closing_tagsOk _, by decide +kernel⟩

theorem witness_OrderDoneEndsTheOrder :
    (closing .sent).tagsOk ∧ (opening .accepted).tagsOk ∧ (closing .sent).ready 1 0x04 = true ∧
      (closing .sent).ready 3 0x0C = true ∧ endPositionOf 2 = none ∧ endPositionOf 1 = some .closed ∧
      endPositionOf 0 = some .opened ∧ (closing .sent).table.presentValve 1 = some 1 ∧
      (closing .sent).switching.records[(0 : Fin 64)] = some (order1 .sent) ∧ (order1 .sent).answers .remote 41 1 ∧
      (closing .sent).noRestoring ∧ (closing .sent).plansOk = true ∧ (opening .accepted).plansOk = true ∧
      ¬(order1 .sent).answers .crew 41 1 ∧ (closing .sent).table.presentValve 512 = none ∧
      ((go (.orderDone 1 1 41 1 1) (closing .sent)).planner.plans.map (fun p => p.done.map (fun d => d.valve)) = [[1]]) ∧
      (go (.orderDone 1 1 41 1 0) (opening .accepted)).planner.plans = [] ∧
      ((go (.orderDone 1 1 42 1 1) (closing .sent)).valveLive[(1 : ValveId)].position = .closed) ∧
      ((go (.orderDone 1 1 42 1 1) (closing .queued)).switching.records[(0 : Fin 64)].map (fun o => (o.tag, o.state.nonFinal)) =
        some (41, true)) :=
  ⟨closing_tagsOk _, opening_tagsOk _, by decide +kernel⟩

theorem witness_OrderDeadlinesRunOut :
    let late (s : State) : State := { s with now := 5000 }
    let task : Order := { order1 .sent with path := .crew }
    (closing .sent).tagsOk ∧ (closing .accepted).tagsOk ∧
      (closing .sent).switching.records[(0 : Fin 64)] = some (order1 .sent) ∧ (order1 .sent).tag = (41 : Byte).toNat ∧
      expired (late (closing .sent)).now (order1 .sent).deadline = true ∧ expired 4999 (order1 .sent).deadline = false ∧
      expired 5000 task.deadline = true ∧ task.path = .crew ∧ task.state = .sent ∧
      (go (.acceptDeadlineExpiry 41) (late (closing .sent))).valveLive[(1 : ValveId)].fault = .comms ∧
      (go (.travelDeadlineExpiry 41) (late (closing .accepted))).valveLive[(1 : ValveId)].fault = .travelTimeout ∧
      (go (.crewTaskDeadlineExpiry 41) (late (ordered task (closing .queued)))).valveLive[(1 : ValveId)].position = .unknown :=
  ⟨closing_tagsOk _, closing_tagsOk _, by decide +kernel⟩

theorem witness_ClearFaultClearsTheFault :
    let s : State := { desk with valveLive := put 0 ⟨.opened, .stuck, none, [], false, 0⟩ desk.valveLive }
    s.ready 0 0x1B = true ∧ s.table.presentValve 3 = none ∧ s.table.presentValve 0 = some 0 ∧ s.noRestoring ∧
      s.valveLive[(0 : ValveId)].fault ≠ .noFault ∧ desk.valveLive[(0 : ValveId)].fault = .noFault ∧ s.alarmsOk = true := by
  decide +kernel

/-! ## Witnesses: proving and outages -/

/-- Plan 1 awaiting generation 2, with a station in its region, and the publication at proving. -/
def awaiting (station : Bool) (supply : Supply) : State :=
  let s := planned { plan1 .executing true with awaiting := true, awaitedGeneration := some 2, closureStamp := some 1 } .isolating
  { s with
    segLive := put 1 ⟨supply, 2⟩ s.segLive
    table := { s.table with stations := put 5 { station17 (.seg 1) with present := station } s.table.stations }
    stationLive := put 5 before17 s.stationLive
    tracer := { s.tracer with deliveries := [(.proving, pub2)] } }

theorem witness_DecisivePublicationJudgesThePlan :
    let x : Plan := { plan1 .executing true with awaiting := true, awaitedGeneration := some 2, closureStamp := some 1 }
    let s := awaiting true .isolated
    let watched := { awaiting true .live with planner := { s.planner with plans := [plan1 .proven true] } }
    s.tracer.deliveries = (.proving, pub2) :: [] ∧ s.noRestoring ∧ s.plansOk = true ∧ x ∈ s.planner.plans ∧
      x.awaitedGeneration = some pub2.generation ∧ ¬s.gasIn x ∧ (awaiting true .live).gasIn x ∧
      s.countsFor x 5 ∧ (∀ i : StationId, ¬(awaiting false .dead).countsFor x i) ∧ s.alarms.general.length < 119 ∧
      watched.plansOk = true ∧ PlanState.proven.watched = true ∧ PlanState.proposed.computes = false ∧
      ((go .publicationProving s).planner.plans.map (fun p => p.state) = [.proving]) ∧
      ((go .publicationProving (awaiting false .dead)).planner.plans.map (fun p => p.state) = [.unproven]) := by
  decide +kernel

/-- Plan 1 in PROVING with station 5 in its region. -/
def provingState : State :=
  let s := awaiting true .isolated
  { s with now := 148000, planner := { s.planner with plans := [{ plan1 .proving true with proofDeadline := some 200000 }] } }

theorem witness_PressuresProveThePlan :
    let s := provingState
    let x : Plan := { plan1 .proving true with proofDeadline := some 200000 }
    let l : StationLive := { before17 with pressure := 900 }
    let low : State := { s with stationLive := put 5 l s.stationLive }
    s.plansOk = true ∧ s.noRestoring ∧ x ∈ s.planner.plans ∧ s.table.stations[(5 : StationId)].present = true ∧
      s.table.stations[(5 : StationId)].location = .seg 1 ∧ (1 : SegId) ∈ x.segs ∧ s.ready 1 0x01 = true ∧
      s.table.presentStation 5 = some 5 ∧ expired s.now s.stationLive[(5 : StationId)].staleness = true ∧
      s.stationLive[(5 : StationId)].quality = .good ∧ low.plansOk = true ∧ low.noRestoring ∧
      ((go (.reading 1 1 5 700 0) low).planner.plans.map (fun p => p.state) = [.proven]) ∧
      ((go (.reading 1 1 5 1723 0) s).planner.plans.map (fun p => p.state) = [.proving]) ∧
      1 < (2 : Byte).toNat ∧ ((go (.reading 1 1 5 0 2) s).planner.plans.map (fun p => p.state) = [.unproven]) ∧
      ((go (.stalenessDeadlineExpiry 5) s).planner.plans.map (fun p => p.state) = [.unproven]) := by decide +kernel

/-- The desk with segments 1 and 2 published DEAD and the publication at the Outage Register. -/
def dark : State := { desk with
  segLive := put 1 ⟨.dead, 2⟩ (put 2 ⟨.dead, 2⟩ desk.segLive)
  tracer := { desk.tracer with deliveries := [(.outages, pub2)] } }

/-- An outage record with segment 1 awaiting relight. -/
def relighting : Outage := ⟨.unknown, 0x43, [], [⟨1, 850⟩], 0, 0, 0, none, false, .relighting⟩
/-- A state with that record. -/
def lit (o : Outage) (s : State) : State := { s with outages := { s.outages with records := put 0 (some o) s.outages.records } }

theorem witness_PublicationPlacesLostSegments :
    let p := planned (plan1 .executing true) .isolating
    let cut : State := { p with segLive := dark.segLive, tracer := dark.tracer }
    let back := lit { relighting with off := [0], state := .active, relight := [] } dark
    let stuck := lit { relighting with off := [1], relight := [], state := .closed, endStamp := some 0 } dark
    dark.tracer.deliveries = (.outages, pub2) :: [] ∧ dark.lost 1 ∧ ¬dark.lost 0 ∧ ¬dark.lost 3 ∧
      (∀ k : OutageId, dark.outages.records[k] = none) ∧ (∀ x ∈ dark.planner.plans, x.committed = false) ∧
      dark.alarms.general.length < 90 ∧ cut.lost 1 ∧ plan1 .executing true ∈ cut.planner.plans ∧
      (1 : SegId) ∈ (plan1 .executing true).segs ∧ back.segLive[(0 : SegId)].supply = .live ∧
      ((go .publicationOutages dark).outages.records[(0 : OutageId)].map (fun o => (o.off, o.customersOff, o.cause)) =
        some ([1, 2], 2950, .unknown)) ∧
      ((go .publicationOutages cut).outages.records[(0 : OutageId)].map (fun o => o.cause) = some (.plan 1)) ∧
      ((go .publicationOutages back).outages.records[(0 : OutageId)].map (fun o => o.relight) = some [⟨0, 1200⟩]) ∧
      (go .publicationOutages (lit { relighting with state := .closed } dark)).outages.records[(0 : OutageId)] = none ∧
      stuck.lost 1 ∧ (go .publicationOutages stuck).outages.records[(0 : OutageId)] = none ∧
      ((go .publicationOutages stuck).outages.records[(1 : OutageId)].map (fun o => o.off) = some [2]) := by decide +kernel

theorem witness_RelightAndCloseEndTheRecord :
    let s := lit relighting desk
    let t := go (.relightReport 3 1 0 1 900) s
    s.ready 3 0x0B = true ∧ s.ready 0 0x27 = true ∧ s.mode = .operating ∧
      s.outages.records[(0 : OutageId)] = some relighting ∧ (0 : OutageId).val = (0 : Byte).toNat ∧
      (⟨1, 850⟩ : RelightEntry) ∈ relighting.relight ∧ (relighting.relight.map (fun x => x.seg)).Nodup ∧
      relighting.state ≠ .closed ∧ (900 : Half) ≠ 0 ∧ s.alarmsOk = true ∧
      (∀ k : OutageId, desk.outages.records[k] = none) ∧
      t.outages.records[(0 : OutageId)].map (fun o => (o.relit, o.state)) = some (850, .closed) := by decide +kernel

/-! ## Witnesses: alarms -/

/-- A record of VALVE_FAULT of valve 1. -/
def fault1 (st : AlarmState) : AlarmRec := ⟨.valveFault, 1, 0x43, 2, st, 0, 0⟩
/-- The desk with some records. -/
def alarmed (rs : List AlarmRec) (o : Option AlarmRec) : State :=
  { desk with alarms := { desk.alarms with general := rs, overflow := o, overflowCount := 3 } }
/-- An OVERFLOW record. -/
def overflow (st : AlarmState) : AlarmRec := ⟨.overflow, 0, noPlace, 1, st, 0, 0⟩

theorem witness_AckMovesTheRecord :
    let s := alarmed [fault1 .unackCleared] (some (overflow .ackActive))
    s.ready 0 0x28 = true ∧ s.alarmsOk = true ∧ alarmKindOf 18 = none ∧ alarmKindOf 6 = some .valveFault ∧
      alarmKindOf 17 = some .overflow ∧ fault1 .unackCleared ∈ s.alarms.general ∧
      (fault1 .unackCleared).object = (1 : Half).toNat ∧ (fault1 .unackCleared).kind ≠ .overflow ∧
      (∀ r ∈ s.alarms.all, ¬(r.kind = .valveFault ∧ r.object = (2 : Half).toNat)) ∧
      s.alarms.overflow = some (overflow .ackActive) ∧ (overflow .ackActive).object = (0 : Half).toNat ∧
      (go (.ack 0 1 6 1) s).alarms.general = [] ∧ (go (.ack 0 1 6 1) s).alarms.overflow = none ∧
      (go (.ack 0 1 6 1) (alarmed [fault1 .unackActive] none)).alarms.general = [fault1 .ackActive] ∧
      (go (.ack 0 1 17 0) (alarmed [] (some (overflow .unackActive)))).alarms.overflow = some (overflow .ackActive) := by
  decide +kernel

theorem witness_SubscribeAndSilenceSetTheirMarks :
    desk.ready 0 0x29 = true ∧ desk.ready 0 0x2A = true ∧ (Instr.subscribe 0 1 2 [3]).wf = false ∧
      (Instr.subscribe 0 1 5 [1, 2, 3, 4, 5]).wf = true ∧ (Instr.subscribe 0 1 1 [16]).wf = true ∧
      15 < (16 : Byte).toNat ∧ (Instr.subscribe 0 1 4 [15, 0, 15, 3]).wf = true ∧
      (go (.subscribe 0 1 4 [15, 0, 15, 3]) desk).alarms.subscriptions[(0 : Port)] = [15, 0, 3] := by decide +kernel

/-! ## Witnesses: link ports -/

/-- LP0 with its receiver in a state. -/
def rx (r : Receiver) : State := { desk with ports := put 0 { up .console with receiver := r, gap := some 21 } linked }

theorem witness_BytesAssembleFrames :
    let body : List Byte := [0x2A, 0x05]
    let c := crc (0x02 :: body)
    let hi : Byte := c.extractLsb' 8 8
    let lo : Byte := c.extractLsb' 0 8
    (rx .hunting).ports[(0 : Port)].role ≠ .unused ∧ (rx .hunting).ports[(0 : Port)].backlog = [] ∧
      2 ≤ (2 : Byte).toNat ∧ (250 : Byte).toNat ≤ 250 ∧ (1 : Byte).toNat < 2 ∧ 250 < (251 : Byte).toNat ∧
      c = half hi lo ∧ crc (0x02 :: body) ≠ half hi (lo + 1) ∧ crc (0x02 :: body) ≠ half hi 0xC5 ∧ body.length ≤ 250 ∧
      (∀ x ∈ 0x02 :: body ++ [hi, lo + 1], x ≠ 0xC5) ∧ (Instr.silence 0 5).wf = true ∧
      (Instr.silence 0 5).body = some body ∧ (Instr.silence 0 5).port = 0 ∧
      (requestReader 0 5 0x40).isNone = true ∧ (requestReader 0 5 0x31).isSome = true ∧
      (requestReader 0 5 0x31).bind (fun r => r []) = none ∧
      (go (.receiveByte 0 lo) (rx (.check 2 body (some hi)))).alarms.silenced = true ∧
      (go (.receiveByte 0 0xC5) (rx (.check 2 body (some hi)))).ports[(0 : Port)].receiver = .length ∧
      (go (.receiveByte 0 0xFB) (rx .length)).ports[(0 : Port)].lengthCount = 1 := by decide +kernel

/-- A SENT order while the telemetry port is SILENT. -/
def sent : State :=
  { closing .sent with now := 10000, ports := put 1 { up .telemetry with state := .silent } linked }

theorem witness_GapAndSilenceRunOut :
    let late : State := { desk with now := 10000 }
    let silent (p : Port) : State := { late with ports := put p { linked[p] with state := .silent } linked }
    let held := planned (plan1 .executing true) .isolating
    (expired 21 (rx .length).ports[(0 : Port)].gap = true ∧ (rx .length).ports[(0 : Port)].receiver ≠ .hunting ∧
      expired 20 (rx .length).ports[(0 : Port)].gap = false ∧ expired late.now late.ports[(0 : Port)].liveness = true ∧
      expired 9999 late.ports[(0 : Port)].liveness = false ∧ late.ports[(0 : Port)].state = .up ∧ late.noRestoring ∧
      late.plansOk = true ∧ late.isTelemetry 1 ∧ (silent 1).ports[(1 : Port)].state = .silent ∧
      late.alarms.general.length < 127 ∧ late.alarmsOk = true ∧ plan1 .executing true ∈ held.planner.plans ∧
      (plan1 .executing true).holder = some 0 ∧ held.ports[(0 : Port)].role = .console ∧
      held.ports[(2 : Port)].consoleUp = true ∧ sent.isTelemetry 1 ∧
      (go (.livenessDeadlineExpiry 1) sent).valveLive[(1 : ValveId)].fault = .comms ∧
      ((go (.livenessDeadlineExpiry 0) { held with now := 10000 }).planner.plans.map (fun p => p.holder) = [some 2])) ∧
      desk.tagsOk ∧ sent.tagsOk :=
  ⟨by decide +kernel, tagsOk_of _ (by decide +kernel), tagsOk_of _ (by decide +kernel)⟩

theorem witness_AFrameBringsThePortUp :
    let s : State := { planned { plan1 .executing true with holder := none, frozen := true } .isolating with
      ports := put 0 { up .console with state := .lost, liveness := none } linked }
    s.ports[(0 : Port)].role ≠ .unused ∧ s.ports[(0 : Port)].state ≠ .up ∧ s.noRestoring ∧ s.plansOk = true ∧
      s.alarmsOk = true ∧ s.ports[(0 : Port)].state ≠ .down ∧ s.ports[(0 : Port)].role = .console ∧
      ((go (.readSegment 0 1 0) s).planner.plans.map (fun p => (p.holder, p.frozen)) = [(some 0, false)]) := by decide +kernel

/-- The telemetry port comes to UP: from LOST with a full queue, from DOWN with and without a free entry, and from SILENT; and a
SILENT port whose queue is full discards the request. -/
theorem witness_TheTelemetryPortComesUp :
    let s (st : PortState) (k : Nat) : State := { desk with
      ports := put 1 { up .telemetry with state := st, queue := List.replicate k [0] } linked }
    let t (st : PortState) (k : Nat) : State := go (.readSegment 1 1 0) (s st k)
    (s .lost 32).isTelemetry 1 ∧ (s .lost 32).ports[(1 : Port)].role ≠ .unused ∧ (s .lost 32).noRestoring ∧
      (s .lost 32).plansOk = true ∧ (s .lost 32).table.params.remoteLimit ≤ 8 ∧ (s .lost 32).table.params.crewLimit ≤ 16 ∧
      (t .lost 32).ports[(1 : Port)].queue.length = 2 ∧ (t .lost 32).ports[(1 : Port)].queue.head? = some surveyBody ∧
      (t .down 5).ports[(1 : Port)].queue.length = 7 ∧ (t .down 32).switching.surveyPending = true ∧
      (t .silent 5).ports[(1 : Port)].queue.length = 6 ∧ (t .silent 32).ports[(1 : Port)].discardCount = 1 := by decide +kernel

theorem witness_FreedEntriesAndLinkReset :
    let full (r : Role) : LinkPort := { up r with queue := List.replicate 32 [0] }
    let survey : State := { desk with
      ports := put 1 (full .telemetry) linked, switching := { desk.switching with surveyPending := true } }
    let list : State := { desk with ports := put 1 (full .telemetry) linked, poll := { desk.poll with waiting := some (4, [17]) } }
    let marked : State := { desk with
      ports := put 0 { up .console with queue := List.replicate 17 [0], resyncMark := true } linked }
    desk.ports[(0 : Port)].queue = [] ∧ survey.ports[(1 : Port)].queue = [0] :: List.replicate 31 [0] ∧ survey.noRestoring ∧
      survey.isTelemetry 1 ∧ survey.ports[(1 : Port)].state = .up ∧
      (List.replicate 31 ([0] : List Byte)).length + survey.ports[(1 : Port)].held < 32 ∧
      survey.switching.surveyPending = true ∧ list.isTelemetry 1 ∧ list.switching.surveyPending = false ∧
      list.poll.waiting = some (4, [17]) ∧ marked.ports[(0 : Port)].queue = [0] :: List.replicate 16 [0] ∧
      marked.ports[(0 : Port)].role = .console ∧ marked.ports[(0 : Port)].resyncMark = true ∧ desk.ready 0 0x30 = true ∧
      (go (.queueEntryFreed 1) survey).switching.surveyPending = false ∧
      (go (.queueEntryFreed 0) marked).ports[(0 : Port)].resyncMark = false := by decide +kernel

theorem witness_ReadsAnswerAndChangeNothing :
    let s := planned (plan1 .proposed false) .opened
    s.ports[(0 : Port)].state = .up ∧ s.ports[(0 : Port)].hasRoom = true ∧ s.ports[(0 : Port)].role ≠ .unused ∧
      512 ≤ (512 : Half).toNat ∧ (511 : ValveId).val = (511 : Half).toNat ∧ 128 ≤ (128 : Byte).toNat ∧
      (127 : StationId).val = (127 : Byte).toNat ∧ s.plan? 2 = none ∧ s.plan? 1 = some (plan1 .proposed false) ∧
      planListOf 8 = none ∧ planListOf 7 = some .incomplete ∧ s.incident? 1 = some (incident1 .opened (some (1, .held))) ∧
      s.incident? 2 = none ∧ s.calls.calls.find? (fun x => x.ref == 7) = some call1 ∧ (∀ c ∈ s.calls.calls, c.ref ≠ 8) ∧
      32 ≤ (32 : Byte).toNat ∧ outageListOf 3 = none ∧ outageListOf 2 = some .relight ∧
      s.outages.records[(31 : OutageId)] = none ∧ 4 ≤ (4 : Byte).toNat ∧ (3 : Port).val = (3 : Byte).toNat := by
  decide +kernel

/-- An absent field is sent as zeros and its flags bit is clear (R179): the incident of a call, the counts of a console port. -/
theorem test_absent_fields_are_zeros :
    ({ call1 with incident := none } : Call).bytes.head? = some 0 ∧ ({ call1 with incident := none } : Call).bytes.getLast? = some 0 ∧
      ({ call1 with incident := some 9 } : Call).bytes.head? = some 1 ∧ desk.begin.pollCounts 0 = [0, 0, 0, 0, 0] ∧
      desk.begin.pollCounts 1 = [1, 0, 0, 0, 0] := by decide +kernel

/-! ## Witnesses: the laws of every step -/

theorem witness_StepsKeepTheTableAndAlarmLaws :
    (∃ t, step { desk with pending := [.silence 0 1] } = .next t) ∧ desk.spansOk = true ∧ desk.subscriptionsOk = true ∧
      desk.alarmsOk = true := ⟨⟨_, rfl⟩, by decide +kernel⟩
theorem witness_StepsKeepCallsAndPlansInOrder :
    let s : State := { planned (plan1 .proposed false) .opened with pending := [.authorise 0 1 1 0] }
    s.callsOk = true ∧ s.plansOk = true ∧ ∃ t, step s = .next t := ⟨by decide +kernel, by decide +kernel, ⟨_, rfl⟩⟩
theorem witness_StepsKeepTheQueues :
    let s : State := { desk with pending := [.silence 0 1] }
    s.queuesOk ∧ ∃ t, step s = .next t := ⟨by decide +kernel, ⟨_, rfl⟩⟩
theorem witness_StepsKeepTagsApart :
    (closing .sent).tagsOk ∧ ∃ t, step { closing .sent with pending := [.acceptDeadlineExpiry 41] } = .next t :=
  ⟨closing_tagsOk _, ⟨_, rfl⟩⟩
theorem witness_StepsKeepCommissioningQuiet :
    let s : State := { bench with pending := [.start 0 1] }
    s.commissioningQuiet ∧ s.mode = .commissioning ∧ ∃ t, step s = .next t :=
  ⟨by decide +kernel, rfl, ⟨_, rfl⟩⟩
theorem witness_RequestBodiesReadBack :
    (Instr.silence 0 5).wf = true ∧ (Instr.silence 0 5).body = some [0x2A, 5] ∧
      decodeBody 0 [0x2A, 5] = .ok (.silence 0 5) := ⟨rfl, rfl, rfl⟩

end Sys2Proof.Tests
end

section
/-! Device reset (R13): what each part of the meaning leaves, and the statement on DEVICE RESET assembled from it. -/

namespace Sys2Proof.Machine

/-! ## The live tables after a reset, entry by entry -/

theorem mapTable_getElem {α β : Type} {n : Nat} (f : Nat → α → β) (xs : Vector α n) (i : Fin n) :
    (mapTable f xs)[i] = f i.val xs[i] := by
  simp [mapTable]

theorem ValveLive.reset_eq (kind : ValveKind) (normal : Position) :
    ValveLive.reset kind normal = ⟨if kind = .remote then .unknown else normal, .noFault, none, [], false, 0⟩ := by
  cases kind <;> rfl

section
variable (s : State) (unlock : Bool)

theorem State.deviceReset_segLive (g : SegId) : (s.deviceReset unlock).segLive[g] = ⟨.uncertain, 0⟩ :=
  Vector.getElem_replicate _

theorem State.deviceReset_valveLive (v : ValveId) :
    (s.deviceReset unlock).valveLive[v] = ⟨if s.store.resetTable.valves[v].kind = .remote then .unknown
      else s.store.resetTable.valves[v].normal, .noFault, none, [], false, 0⟩ :=
  (mapTable_getElem _ _ v).trans (ValveLive.reset_eq _ _)

theorem State.deviceReset_feedState (f : FeedId) : (s.deviceReset unlock).feedState[f] = .doubtful :=
  Vector.getElem_replicate _

theorem State.deviceReset_stationLive (i : StationId) :
    (s.deviceReset unlock).stationLive[i] =
      stationAfterReset s.store.resetTable.stations[i] s.store.resetTable.params.framePeriod :=
  mapTable_getElem _ _ i

theorem State.deviceReset_poll (i : StationId) :
    (s.deviceReset unlock).poll.tiers[i] = s.store.resetTable.stations[i].tier ∧
      (s.deviceReset unlock).poll.overdue[i] = false :=
  ⟨mapTable_getElem _ _ i, Vector.getElem_replicate _⟩

theorem State.deviceReset_ports (p : Port) :
    (s.deviceReset unlock).ports[p] = LinkPort.reset s.store.resetTable.ports[p] :=
  mapTable_getElem _ _ p

end

/-! ## The mode and the pass -/

theorem State.deviceReset_mode_eq_operating_iff (s : State) (unlock : Bool) :
    (s.deviceReset unlock).mode = .operating ↔ s.store.goesOperating unlock = true := by
  simp [State.deviceReset, resetWith, ConfigStore.resetMode]

/-- A published pass triggered while the engine is IDLE starts at the end of the same event, on the state as it stands, and
the event does nothing else (R63). -/
theorem event_triggerPass_of_idle (s : State) (h : s.tracer.engine = .idle) :
    event Ev.triggerPass s = { s with
      events := s.events + 1
      tracer := { s.tracer with engine := .publishing s.begin.snapshot, rerun := false } } := by
  have hquiet : s.begin.triggerPass.QuietButPass := ⟨rfl, rfl, rfl, rfl, rfl, rfl, rfl⟩
  rw [event, Ev.finish_pass hquiet, Ev.settleTracer_triggered rfl rfl]
  simp only [Ev.triggerPass_tracer, State.begin_tracer, h]
  rfl

/-- The end of a device reset touches only the count of events and the tracer. The snapshot of a pass it starts is the
state itself, dated by that count. -/
theorem State.resetPass_eq (s : State) (h : s.tracer = Tracer.reset) :
    ∃ n tr, s.resetPass = { s with events := n, tracer := tr } ∧
      tr = if s.mode = .operating then
        { Tracer.reset with engine := .publishing { s.begin.snapshot with order := n } } else Tracer.reset := by
  cases hm : s.mode with
  | commissioning =>
    have hstay : s.resetPass = s := by rw [State.resetPass, hm]
    exact ⟨s.events, s.tracer, by rw [hstay, ← hm], h⟩
  | operating =>
    have hidle : s.tracer.engine = .idle := by rw [h]; rfl
    have hpass : s.resetPass = event Ev.triggerPass s := by rw [State.resetPass, hm]
    refine ⟨s.events + 1, _, ?_, (if_pos rfl).symm⟩
    rw [hpass, event_triggerPass_of_idle s hidle, h, ← hm]
    rfl

/-! ## The statement -/

/-- Settles O3: the state after the reset has each block's own reset value over the table chosen, and the pass that follows
changes nothing but the tracer and the count of events. -/
theorem deviceResetChoosesModeAndTable : Obligations.DeviceResetChoosesModeAndTable := by
  intro s unlock
  obtain ⟨n, tr, hpass, htr⟩ := (s.deviceReset unlock).resetPass_eq rfl
  simp only [s.deviceReset_mode_eq_operating_iff unlock] at htr
  refine ⟨_, congrArg Host.Outcome.next hpass, rfl, rfl, rfl, rfl, rfl, rfl, rfl, ?segs, ?valves, ?feeds, ?stations, ?poll,
    rfl, rfl, rfl, htr, rfl, rfl, rfl, rfl, rfl, ?ports⟩
  case segs => exact s.deviceReset_segLive unlock
  case valves => exact s.deviceReset_valveLive unlock
  case feeds => exact s.deviceReset_feedState unlock
  case stations => exact s.deviceReset_stationLive unlock
  case poll => exact s.deviceReset_poll unlock
  case ports => exact s.deviceReset_ports unlock

end Sys2Proof.Machine
end

section
/-! LIMITS WRITE and COLLECT (R35, R38): what their blocks do to the event, and the statement on both assembled from it. -/

namespace Sys2Proof.Machine

/-! ## A request that the port's role does not permit -/

/-- A request on a port that is UP with a free entry, of a kind its working role does not permit: only the refusal (R175). -/
theorem request_roleRefused (p : Port) (seq kind : Byte) (block : Sender → Ev → Ev) (s : State)
    (hup : s.ports[p].state = .up) (hroom : s.ports[p].hasRoom = true) (hused : s.ports[p].role ≠ .unused)
    (hkind : s.ports[p].role.permits kind = false) :
    request p seq kind block s = s.answered ⟨p, seq, kind⟩ .roleRefused [] := by
  have hroom' : (s.heard p).begin.ports[p].hasRoom = true := by
    rw [State.begin_ports, heard_port]; exact hroom
  have hkind' : ((s.heard p).begin.holdEntry p).ports[p].role.permits kind = false := by
    rw [Ev.holdEntry, Ev.modPort_ports, upd_self, State.begin_ports, heard_port]; exact hkind
  have hoffer : (s.heard p).begin.offer ⟨p, seq, kind⟩ none (block ⟨p, seq, kind⟩) =
      (s.atBlock p).reply ⟨p, seq, kind⟩ .roleRefused [] := by
    rw [Ev.offer, if_pos hroom']
    dsimp only
    rw [hkind', if_neg Bool.false_ne_true, Ev.refuse_eq, State.atBlock]
  rw [request, takeFrame, if_neg hused, heard_event s p hup, event, hoffer]
  exact answered_eq s ⟨p, seq, kind⟩ _ _

/-- A request for consoles only, on a telemetry or dispatch port. -/
theorem request_roleRefused_of_noConsole (p : Port) (seq kind : Byte) (block : Sender → Ev → Ev) (s : State)
    (ht : Role.telemetry.permits kind = false) (hd : Role.dispatch.permits kind = false)
    (hup : s.ports[p].state = .up) (hroom : s.ports[p].hasRoom = true)
    (hrole : s.ports[p].role = .telemetry ∨ s.ports[p].role = .dispatch) :
    request p seq kind block s = s.answered ⟨p, seq, kind⟩ .roleRefused [] := by
  obtain hrole | hrole := hrole
  · exact request_roleRefused p seq kind block s hup hroom (by rw [hrole]; nofun) (by rw [hrole, ht])
  · exact request_roleRefused p seq kind block s hup hroom (by rw [hrole]; nofun) (by rw [hrole, hd])

/-- A request for consoles on a console port: the block's one event. -/
theorem request_console (p : Port) (seq kind : Byte) (block : Sender → Ev → Ev) (s : State)
    (hc : Role.console.permits kind = true) (hup : s.ports[p].state = .up) (hroom : s.ports[p].hasRoom = true)
    (hrole : s.ports[p].role = .console) :
    request p seq kind block s = (block ⟨p, seq, kind⟩ (s.atBlock p)).finish :=
  request_ready p seq kind block s ((s.ready_iff p kind).2 ⟨hup, by rw [hrole, hc], hroom⟩)

/-! ## A request that changes one station and replies -/

/-- A request whose block changes the live state of one station, which calls for nothing at the end of the event, and
replies. -/
theorem answered_modStation (s : State) (q : Sender) (i : StationId) (f : StationLive → StationLive) (c : ReplyCode)
    (r : List Byte) :
    (((s.atBlock q.port).modStation i f).reply q c r).finish =
      { s.answered q c r with stationLive := upd s.stationLive i f } := by
  have hquiet : (((s.atBlock q.port).modStation i f).reply q c r).Quiet :=
    Ev.Quiet.reply ⟨rfl, rfl, rfl, rfl, rfl, rfl, rfl, rfl⟩ q c r
  rw [Ev.finish_quiet hquiet, ← answered_eq, Ev.finish_quiet ((s.atBlock_quiet _).reply _ _ _)]
  rfl

/-! ## The values of a LIMITS WRITE -/

theorem limitsOrdered_iff (x : Limits) :
    limitsOrdered x = true ↔ x.ll < x.l ∧ x.l < x.h ∧ x.h < x.hh ∧ x.ll + x.deadband < x.l ∧ x.l + x.deadband < x.h ∧
      x.h + x.deadband < x.hh := by
  simp only [limitsOrdered, Bool.and_eq_true, decide_eq_true_eq]
  omega

/-- The third check of a LIMITS WRITE: every value in its range and the limits in order (R35). -/
theorem limitsValid_iff (x : Limits) :
    limitsValid x = true ↔ x.ll ≤ 1000000 ∧ x.l ≤ 1000000 ∧ x.h ≤ 1000000 ∧ x.hh ≤ 1000000 ∧
      x.ll < x.l ∧ x.l < x.h ∧ x.h < x.hh ∧ x.ll + x.deadband < x.l ∧ x.l + x.deadband < x.h ∧
      x.h + x.deadband < x.hh ∧ 1 ≤ x.fall ∧ x.fall ≤ 100000 := by
  simp only [limitsValid, Bool.and_eq_true, decide_eq_true_eq, limitsOrdered_iff, and_assoc]

/-! ## The blocks, one equation per case -/

section
variable {station : Byte} {i : StationId} {l : Limits} {q : Sender} {e : Ev}

theorem limitsWriteBlock_absent (h : e.table.presentStation station = none) :
    limitsWriteBlock station l q e = e.reply q .noSuchObject [] := by
  rw [limitsWriteBlock, h, Ev.refuse_eq]

theorem limitsWriteBlock_invalid (h : e.table.presentStation station = some i) (hl : ¬limitsValid l = true) :
    limitsWriteBlock station l q e = e.reply q .limitsInvalid [] := by
  rw [limitsWriteBlock, h]
  exact if_neg hl

theorem limitsWriteBlock_valid (h : e.table.presentStation station = some i) (hl : limitsValid l = true) :
    limitsWriteBlock station l q e = (e.modStation i (fun x => { x with waiting := some l })).reply q .ok [] := by
  rw [limitsWriteBlock, h]
  exact if_pos hl

theorem collectBlock_absent (h : e.table.presentStation station = none) :
    collectBlock station q e = e.reply q .noSuchObject [] := by
  rw [collectBlock, h, Ev.refuse_eq]

theorem collectBlock_present (h : e.table.presentStation station = some i) :
    collectBlock station q e =
      (e.modStation i (fun l => { l with capture := none })).reply q .ok (captureBytes e.stationLive[i].capture) := by
  rw [collectBlock, h]

end

/-- The result of a COLLECT is 15 bytes of zeros where the capture is empty, and the flags byte 1 and the capture's fields
where it is not (R182). -/
theorem captureBytes_eq (c : Option Capture) :
    captureBytes c = match c with
      | none => List.replicate 15 0
      | some x => [1] ++ u8 x.band.code ++ u32 x.pressure ++ i32 x.rate ++ w32 x.stamp ++ u8 x.further := by
  cases c <;> rfl

/-! ## The two commands -/

theorem exec_limitsWrite (p : Port) (seq station : Byte) (ll l h hh d fall : Word) (s : State) :
    exec (.limitsWrite p seq station ll l h hh d fall) s = .next (request p seq 0x19
      (limitsWriteBlock station ⟨ll.toNat, l.toNat, h.toNat, hh.toNat, d.toNat, fall.toNat⟩) s) := rfl

theorem exec_collect (p : Port) (seq station : Byte) (s : State) :
    exec (.collect p seq station) s = .next (request p seq 0x1A (collectBlock station) s) := rfl

/-! ## The statement -/

/-- Settles O22: each outcome is the equation of its block's case, met by the state that a request that only replies, or one
that also changes one station, leaves. -/
theorem limitsWaitAndCollectEmpties : Obligations.LimitsWaitAndCollectEmpties := by
  constructor
  case left =>
    intro s p seq station ll l h hh d fall cmd q ok
    have hvalid : limitsValid ⟨ll.toNat, l.toNat, h.toNat, hh.toNat, d.toNat, fall.toNat⟩ = true ↔ ok := limitsValid_iff _
    simp only [cmd, exec_limitsWrite]
    refine ⟨fun hup hroom hrole => ?_, fun hup hroom hrole => ?_⟩
    · rw [request_roleRefused_of_noConsole p seq 0x19 _ s rfl rfl hup hroom hrole]
    rw [request_console p seq 0x19 _ s rfl hup hroom hrole]
    refine ⟨fun habsent => ?_, fun i hi => ⟨fun hbad => ?_, fun hok => ?_⟩⟩
    · rw [limitsWriteBlock_absent habsent, answered_eq s q]
    · rw [limitsWriteBlock_invalid hi (mt hvalid.1 hbad), answered_eq s q]
    · rw [limitsWriteBlock_valid hi (hvalid.2 hok), answered_modStation s q]
  case right =>
    intro s p seq station q
    simp only [exec_collect]
    refine ⟨fun hup hroom hrole => ?_, fun hup hroom hrole => ?_⟩
    · rw [request_roleRefused_of_noConsole p seq 0x1A _ s rfl rfl hup hroom hrole]
    rw [request_console p seq 0x1A _ s rfl hup hroom hrole]
    refine ⟨fun habsent => ?_, fun i hi => ?_⟩
    · rw [collectBlock_absent habsent, answered_eq s q]
    · rw [collectBlock_present hi, answered_modStation s q, captureBytes_eq] <;> rfl

end Sys2Proof.Machine
end

section
/-! Supply states (R57 to R60): the breadth-first search finds exactly the segments that a path reaches, over any links
and feeds; then a snapshot's own links and sources, and the statement on the four supply states. -/

namespace Sys2Proof.Machine

/-! ## Lists without repeats -/

theorem mem_dedup {α : Type} [BEq α] [LawfulBEq α] {x : α} {seen xs : List α} :
    x ∈ dedup seen xs ↔ x ∈ seen ∨ x ∈ xs := by
  induction xs generalizing seen with
  | nil => simp [dedup]
  | cons y ys ih =>
    rw [dedup]
    split
    case isTrue hy =>
      have hy : y ∈ seen := List.contains_iff_mem.1 hy
      rw [ih, List.mem_cons]
      exact ⟨Or.imp_right .inr, fun h => h.elim .inl (fun h => h.elim (fun h => .inl (h ▸ hy)) .inr)⟩
    case isFalse => rw [ih, List.mem_append, List.mem_singleton, List.mem_cons, or_assoc]

theorem nodup_dedup {α : Type} [BEq α] [LawfulBEq α] {seen : List α} (h : seen.Nodup) (xs : List α) :
    (dedup seen xs).Nodup := by
  induction xs generalizing seen with
  | nil => exact h
  | cons y ys ih =>
    rw [dedup]
    split
    case isTrue => exact ih h
    case isFalse hy =>
      have hcons : (y :: seen).Nodup := List.nodup_cons.2 ⟨mt List.contains_iff_mem.2 hy, h⟩
      exact ih ((List.perm_append_comm (l₁ := [y])).nodup hcons)

/-! ## One link -/

/-- Two sides are joined by a link of a list. -/
def linked (links : List Link) (a b : Side) : Prop := ∃ l ∈ links, joins l.1 l.2 a b

theorem mem_farSeg {from? : Side → Bool} {l : Link} {i : SegId} :
    i ∈ farSeg from? l ↔ ∃ a, from? a = true ∧ joins l.1 l.2 a (.seg i) := by
  obtain ⟨a, b⟩ := l
  have hab : (∃ c, from? c = true ∧ joins a b c (.seg i)) ↔
      (from? a = true ∧ b = .seg i) ∨ (from? b = true ∧ a = .seg i) := by
    constructor
    · rintro ⟨c, hc, ⟨rfl, hb⟩ | ⟨ha, rfl⟩⟩
      · exact .inl ⟨hc, hb⟩
      · exact .inr ⟨hc, ha⟩
    · rintro (⟨ha, hb⟩ | ⟨hb, ha⟩)
      · exact ⟨a, ha, .inl ⟨rfl, hb⟩⟩
      · exact ⟨b, hb, .inr ⟨ha, rfl⟩⟩
  rw [hab, farSeg, List.mem_append]
  refine or_congr ?_ ?_
  · cases b <;> simp [@eq_comm _ i]
  · cases a <;> simp [@eq_comm _ i]

theorem mem_oneLink {links : List Link} {from? : Side → Bool} {i : SegId} :
    i ∈ oneLink links from? ↔ ∃ a, from? a = true ∧ linked links a (.seg i) := by
  simp only [oneLink, mem_dedup, List.not_mem_nil, false_or, List.mem_flatMap, mem_farSeg]
  exact ⟨fun ⟨l, hl, a, ha, hal⟩ => ⟨a, ha, l, hl, hal⟩, fun ⟨a, ha, l, hl, hal⟩ => ⟨l, hl, a, ha, hal⟩⟩

theorem oneLink_nodup (links : List Link) (from? : Side → Bool) : (oneLink links from?).Nodup :=
  nodup_dedup List.nodup_nil _

theorem sideIn_iff {segs : List SegId} {a : Side} : sideIn segs a = true ↔ ∃ j ∈ segs, a = .seg j := by
  cases a <;> simp [sideIn]

theorem sideFeed_iff {feeds : List FeedId} {a : Side} : sideFeed feeds a = true ↔ ∃ f ∈ feeds, a = .feed f := by
  cases a <;> simp [sideFeed]

theorem mem_oneLink_sideIn {links : List Link} {segs : List SegId} {i : SegId} :
    i ∈ oneLink links (sideIn segs) ↔ ∃ j ∈ segs, linked links (.seg j) (.seg i) := by
  simp only [mem_oneLink, sideIn_iff]
  exact ⟨fun ⟨_, ⟨j, hj, rfl⟩, hji⟩ => ⟨j, hj, hji⟩, fun ⟨j, hj, hji⟩ => ⟨.seg j, ⟨j, hj, rfl⟩, hji⟩⟩

theorem mem_oneLink_sideFeed {links : List Link} {feeds : List FeedId} {i : SegId} :
    i ∈ oneLink links (sideFeed feeds) ↔ ∃ f ∈ feeds, linked links (.feed f) (.seg i) := by
  simp only [mem_oneLink, sideFeed_iff]
  exact ⟨fun ⟨_, ⟨f, hf, rfl⟩, hfi⟩ => ⟨f, hf, hfi⟩, fun ⟨f, hf, hfi⟩ => ⟨.feed f, ⟨f, hf, rfl⟩, hfi⟩⟩

/-! ## The search -/

/-- The segments of a search's result. -/
abbrev found (acc : List (SegId × Nat)) : List SegId := acc.map (fun x => x.1)

/-- The segments of the next frontier: one link from the last one, and not found before. -/
def nextFrontier (links : List Link) (frontier seen : List SegId) : List SegId :=
  (oneLink links (sideIn frontier)).filter (fun i => !seen.contains i)

theorem mem_nextFrontier {links : List Link} {frontier seen : List SegId} {i : SegId} :
    i ∈ nextFrontier links frontier seen ↔ (∃ j ∈ frontier, linked links (.seg j) (.seg i)) ∧ i ∉ seen := by
  simp [nextFrontier, mem_oneLink_sideIn]

theorem found_append_frontier (acc : List (SegId × Nat)) (frontier : List SegId) (d : Nat) :
    found (acc ++ frontier.map (fun i => (i, d))) = found acc ++ frontier := by
  simp [found, Function.comp_def]

theorem spread_cons (links : List Link) (fuel d : Nat) (g : SegId) (gs : List SegId) (acc : List (SegId × Nat)) :
    spread links (fuel + 1) d (g :: gs) acc =
      spread links fuel (d + 1) (nextFrontier links (g :: gs) (found acc ++ g :: gs))
        (acc ++ (g :: gs).map (fun i => (i, d))) := by
  rw [← found_append_frontier acc (g :: gs) d]
  rfl

/-- What every round of a search keeps: no segment is met twice, the segments one link from those found are found or in the
frontier, and the fuel left covers the segments not found. -/
structure Searching (links : List Link) (fuel : Nat) (frontier : List SegId) (acc : List (SegId × Nat)) : Prop where
  nodup : (found acc ++ frontier).Nodup
  closed : ∀ j ∈ found acc, ∀ i, linked links (.seg j) (.seg i) → i ∈ found acc ++ frontier
  enough : 256 ≤ fuel + acc.length

namespace Searching

variable {links : List Link} {fuel : Nat} {frontier : List SegId} {acc : List (SegId × Nat)}

/-- With the fuel spent all 256 segments are found, so no frontier is left. -/
theorem frontier_eq_nil (h : Searching links 0 frontier acc) : frontier = [] := by
  have hcard := List.Nodup.length_le_of_subset h.nodup (fun i _ => List.mem_finRange i)
  have henough := h.enough
  simp only [List.length_append, List.length_map, List.length_finRange] at hcard
  exact List.eq_nil_of_length_eq_zero (by omega)

/-- A round keeps the invariant: it finds its frontier, at least one segment. -/
theorem round {g : SegId} {gs : List SegId} (h : Searching links (fuel + 1) (g :: gs) acc) (d : Nat) :
    Searching links fuel (nextFrontier links (g :: gs) (found acc ++ g :: gs))
      (acc ++ (g :: gs).map (fun i => (i, d))) where
  nodup := by
    rw [found_append_frontier]
    have hapart : ∀ a ∈ found acc ++ g :: gs, ∀ b ∈ nextFrontier links (g :: gs) (found acc ++ g :: gs), a ≠ b :=
      fun _ hold _ hnew heq => (mem_nextFrontier.1 hnew).2 (heq ▸ hold)
    exact List.nodup_append.2 ⟨h.nodup, List.filter_sublist.nodup (oneLink_nodup _ _), hapart⟩
  closed j hj i hji := by
    rw [found_append_frontier] at hj ⊢
    by_cases hi : i ∈ found acc ++ g :: gs
    · exact List.mem_append_left _ hi
    · have hj : j ∈ g :: gs := (List.mem_append.1 hj).resolve_left (fun hj => hi (h.closed j hj i hji))
      exact List.mem_append_right _ (mem_nextFrontier.2 ⟨⟨j, hj, hji⟩, hi⟩)
  enough := by
    have henough := h.enough
    simp only [List.length_append, List.length_map, List.length_cons]
    omega

end Searching

section
variable {links : List Link} {fuel : Nat} {frontier : List SegId} {acc : List (SegId × Nat)}

/-- A search finds only what every set closed under the links contains, once it contains the start. -/
theorem of_mem_spread {P : SegId → Prop} (hlink : ∀ j i, P j → linked links (.seg j) (.seg i) → P i) {d : Nat}
    (hstart : ∀ i ∈ found acc ++ frontier, P i) : ∀ i ∈ found (spread links fuel d frontier acc), P i := by
  induction fuel generalizing d frontier acc with
  | zero => exact fun i hi => hstart i (List.mem_append_left _ hi)
  | succ fuel ih =>
    cases frontier with
    | nil => exact fun i hi => hstart i (List.mem_append_left _ hi)
    | cons g gs =>
      rw [spread_cons]
      refine ih fun i hi => ?_
      rw [found_append_frontier] at hi
      obtain hold | hnew := List.mem_append.1 hi
      · exact hstart i hold
      · obtain ⟨⟨j, hj, hji⟩, -⟩ := mem_nextFrontier.1 hnew
        exact hlink j i (hstart j (List.mem_append_right _ hj)) hji

/-- A list that holds some segments, and with each of its own those one link away. -/
def Saturates (links : List Link) (start segs : List SegId) : Prop :=
  (∀ i ∈ start, i ∈ segs) ∧ ∀ j ∈ segs, ∀ i, linked links (.seg j) (.seg i) → i ∈ segs

theorem Searching.saturates_of_no_frontier (h : Searching links fuel [] acc) :
    Saturates links (found acc ++ []) (found acc) := by
  have hclosed := h.closed
  rw [List.append_nil] at hclosed ⊢
  exact ⟨fun _ hi => hi, hclosed⟩

/-- A search ends with no frontier, as the fuel outlasts it: its result holds all it started with and all the links lead to
from there. -/
theorem Searching.spread_saturates (h : Searching links fuel frontier acc) (d : Nat) :
    Saturates links (found acc ++ frontier) (found (spread links fuel d frontier acc)) := by
  induction fuel generalizing d frontier acc with
  | zero =>
    obtain rfl := h.frontier_eq_nil
    exact h.saturates_of_no_frontier
  | succ fuel ih =>
    cases frontier with
    | nil => exact h.saturates_of_no_frontier
    | cons g gs =>
      rw [spread_cons]
      obtain ⟨hkept, hclosed⟩ := ih (h.round d) (d + 1)
      rw [found_append_frontier] at hkept
      exact ⟨fun i hi => hkept i (List.mem_append_left _ hi), hclosed⟩

end

/-- The search from the feeds begins with 256 rounds of fuel and nothing found. -/
theorem Searching.start (links : List Link) (feeds : List FeedId) :
    Searching links 256 (oneLink links (sideFeed feeds)) [] where
  nodup := oneLink_nodup _ _
  closed := nofun
  enough := Nat.le_refl 256

/-- The search reaches exactly the segments to which a path leads from the feeds (R58). -/
theorem mem_reach_iff_fed {links : List Link} {feeds : List FeedId} {i : SegId} :
    i ∈ found (reach links feeds) ↔ Fed (linked links) (fun f => f ∈ feeds) i := by
  constructor
  case mp =>
    refine of_mem_spread (fun j i => Fed.next) (fun i hi => ?_) i
    obtain ⟨f, hf, hfi⟩ := mem_oneLink_sideFeed.1 hi
    exact .first hf hfi
  case mpr =>
    obtain ⟨hkept, hclosed⟩ := (Searching.start links feeds).spread_saturates 1
    intro h
    induction h with
    | first hf hfi => exact hkept _ (mem_oneLink_sideFeed.2 ⟨_, hf, hfi⟩)
    | next _ hji ih => exact hclosed _ ih _ hji

/-! ## Paths over more links, from more feeds -/

theorem Fed.mono {link link' : Side → Side → Prop} {feed feed' : FeedId → Prop} {i : SegId}
    (hlink : ∀ a b, link a b → link' a b) (hfeed : ∀ f, feed f → feed' f) (h : Fed link feed i) :
    Fed link' feed' i := by
  induction h with
  | first hf hfi => exact .first (hfeed _ hf) (hlink _ _ hfi)
  | next _ hji ih => exact .next ih (hlink _ _ hji)

theorem Fed.congr {link link' : Side → Side → Prop} {feed feed' : FeedId → Prop} {i : SegId}
    (hlink : ∀ a b, link a b ↔ link' a b) (hfeed : ∀ f, feed f ↔ feed' f) : Fed link feed i ↔ Fed link' feed' i :=
  ⟨Fed.mono (fun a b => (hlink a b).1) (fun f => (hfeed f).1),
    Fed.mono (fun a b => (hlink a b).2) (fun f => (hfeed f).2)⟩

/-! ## A snapshot's links and sources -/

theorem Position.isOpen_iff {p : Position} : p.isOpen = true ↔ p = .opened := by
  cases p <;> decide

theorem Position.mayPass_iff {p : Position} : p.mayPass = true ↔ p = .opened ∨ p = .moving ∨ p = .unknown := by
  cases p <;> decide

theorem FeedState.sure_iff {f : FeedState} : f.sure = true ↔ f = .accepted := by
  cases f <;> decide

theorem FeedState.possible_iff {f : FeedState} : f.possible = true ↔ f = .accepted ∨ f = .doubtful := by
  cases f <;> decide

section
variable {s : Snapshot}

/-- A valve is an edge in the words of R57. -/
theorem Snapshot.isEdge_iff {v : SnapValve} :
    s.isEdge v = true ↔ s.hasSide v.sideA = true ∧ s.hasSide v.sideB = true ∧
      ¬(v.sideA.isFeed = true ∧ v.sideB.isFeed = true) ∧ v.sideA ≠ v.sideB := by
  simp only [Snapshot.isEdge, Bool.and_eq_true, Bool.not_eq_true', ← Bool.not_eq_true, bne_iff_ne, and_assoc]

/-- The links of the valves whose position meets a test join what those valves' edges join. -/
theorem Snapshot.linked_links_iff {test : Position → Bool} {pos : Position → Prop} (h : ∀ p, test p = true ↔ pos p)
    {a b : Side} : linked (s.links test) a b ↔ s.carries pos a b := by
  simp only [linked, Snapshot.links, Snapshot.carries, List.mem_map, List.mem_filter, Bool.and_eq_true,
    Snapshot.isEdge_iff, h]
  constructor
  · rintro ⟨_, ⟨v, ⟨hv, hedge, hpos⟩, rfl⟩, hjoins⟩
    exact ⟨v, hv, hpos, hjoins, hedge⟩
  · rintro ⟨v, hv, hpos, hjoins, hedge⟩
    exact ⟨_, ⟨v, ⟨hv, hedge, hpos⟩, rfl⟩, hjoins⟩

theorem Snapshot.mem_sources {test : FeedState → Bool} {f : FeedId} :
    f ∈ s.sources test ↔ ∃ st, (f, st) ∈ s.feeds ∧ test st = true := by
  simp [Snapshot.sources]

/-- The definitely connected segments are those that a path of OPEN edges from an ACCEPTED feed reaches (R58). -/
theorem Snapshot.reached_definite_iff {i : SegId} : reached? s.definite i = true ↔ s.surely i := by
  rw [reached?, List.contains_iff_mem, Snapshot.definite, mem_reach_iff_fed]
  refine Fed.congr (fun a b => s.linked_links_iff fun _ => Position.isOpen_iff) (fun f => ?_)
  simp [Snapshot.mem_sources, FeedState.sure_iff]

/-- The possibly connected segments are those that a path of edges that are not CLOSED, from a feed that is not FAILED,
reaches (R59). -/
theorem Snapshot.reached_possible_iff {i : SegId} : reached? s.possible i = true ↔ s.perhaps i := by
  rw [reached?, List.contains_iff_mem, Snapshot.possible, mem_reach_iff_fed]
  refine Fed.congr (fun a b => s.linked_links_iff fun _ => Position.mayPass_iff) (fun f => ?_)
  simp [Snapshot.mem_sources, FeedState.possible_iff, and_or_left, exists_or]

theorem Snapshot.carries_mono {pos pos' : Position → Prop} (h : ∀ p, pos p → pos' p) {a b : Side} :
    s.carries pos a b → s.carries pos' a b :=
  fun ⟨v, hv, hpos, hedge⟩ => ⟨v, hv, h _ hpos, hedge⟩

/-- An OPEN edge is not CLOSED and an ACCEPTED feed is not FAILED, so the sure paths are among the possible ones. -/
theorem Snapshot.perhaps_of_surely {i : SegId} : s.surely i → s.perhaps i :=
  Fed.mono (fun _ _ => s.carries_mono fun _ => .inl) (fun _ => .inl)

theorem Snapshot.inRegion_iff {i : SegId} : s.inRegion i = true ↔ ∃ r ∈ s.regions, i ∈ r.2 := by
  simp [Snapshot.inRegion]

/-! ## The supply state, one equation per line of R60 -/

variable {i : SegId}

theorem Snapshot.supply_of_surely (h : s.surely i) : s.supply i = .live :=
  if_pos (s.reached_definite_iff.2 h)

theorem Snapshot.supply_of_perhaps (hs : ¬s.surely i) (hp : s.perhaps i) : s.supply i = .uncertain := by
  rw [Snapshot.supply, supplyFrom, if_neg (mt s.reached_definite_iff.1 hs), if_pos (s.reached_possible_iff.2 hp)]

theorem Snapshot.supply_of_unfed (hp : ¬s.perhaps i) : s.supply i = if s.inRegion i then .isolated else .dead := by
  rw [Snapshot.supply, supplyFrom, if_neg (mt s.reached_definite_iff.1 (mt s.perhaps_of_surely hp)),
    if_neg (mt s.reached_possible_iff.1 hp)]

end

/-! ## The statement -/

/-- Settles O25: the four cases exclude each other and leave none out, so each equation of a case is an equivalence. -/
theorem supplyStatesFollowThePaths : Obligations.SupplyStatesFollowThePaths := by
  intro s i
  have hregion := s.inRegion_iff (i := i)
  have hwider := s.perhaps_of_surely (i := i)
  by_cases hs : s.surely i
  case pos => simp [s.supply_of_surely hs, hs, hwider hs]
  by_cases hp : s.perhaps i
  case pos => simp [s.supply_of_perhaps hs hp, hs, hp]
  rw [s.supply_of_unfed hp]
  by_cases hr : ∃ r ∈ s.regions, i ∈ r.2
  case pos =>
    rw [if_pos (hregion.2 hr)]
    simpa [hs, hp] using hr
  case neg =>
    rw [if_neg (mt hregion.1 hr)]
    simpa [hs, hp] using hr

end Sys2Proof.Machine
end
